-- ==== Sys2Proof/Word.lean ====
section
/-! DEFINITION. The bit-vector types of the block's ports and registers (spec/00_scope.md R7: every value is unsigned,
bit 0 is the least significant bit). -/

namespace Sys2Proof

/-- A byte of a buffer or of a stream (R7, R63: every buffer access is one byte wide). -/
abbrev Byte := BitVec 8

/-- A 32-bit value: the operand field of a command, the value field of a response, most registers (R101, R102). -/
abbrev Word := BitVec 32

/-- A command word `CMD40` (R101). -/
abbrev CmdWord := BitVec 40

/-- A response word `RESP40` (R102). -/
abbrev RespWord := BitVec 40

/-- A receive event symbol `RXEV9` (R104). -/
abbrev RxSymbol := BitVec 9

/-- One sample of the two signal wires (R105): bit 0 is `SIG.RESET`, bit 1 is `SIG.ABORT` (the numbering of the
two wires inside a sample is the model's, log entry 3). -/
abbrev WireSample := BitVec 2

end Sys2Proof
end

