-- ==== Sys2Proof/Machine/Checksum.lean ====
section
/-! DEFINITION. The two CRC generators as functions (spec/40_crc.md R131 to R139). -/

namespace Sys2Proof.Machine

/-- `CRC16_INIT` (R131). -/
def crc16Init : BitVec 16 := 0xFFFF

/-- `CRC16_POLY` (R131). -/
def crc16Poly : BitVec 16 := 0x1021

/-- One iteration of R132: the test of bit 15 is made before the shift. -/
def crc16Shift (c : BitVec 16) : BitVec 16 :=
  if c.getLsbD 15 then (c <<< 1) ^^^ crc16Poly else c <<< 1

/-- `Crc16Step(c, b)` (R132). -/
def crc16Step (c : BitVec 16) (b : Byte) : BitVec 16 :=
  crc16Shift^[8] (c ^^^ (b.setWidth 16 <<< 8))

/-- `crc16_ccitt(A)` (R134). -/
def crc16Ccitt (a : List Byte) : BitVec 16 :=
  a.foldl crc16Step crc16Init

/-- `CRC32_INIT` (R136). -/
def crc32Init : BitVec 32 := 0xFFFFFFFF

/-- `CRC32_POLY` (R136). -/
def crc32Poly : BitVec 32 := 0xEDB88320

/-- One iteration of R137: the test of bit 0 is made before the logical shift. -/
def crc32Shift (c : BitVec 32) : BitVec 32 :=
  if c.getLsbD 0 then (c >>> 1) ^^^ crc32Poly else c >>> 1

/-- `Crc32Step(c, b)` (R137). -/
def crc32Step (c : BitVec 32) (b : Byte) : BitVec 32 :=
  crc32Shift^[8] (c ^^^ b.setWidth 32)

/-- `crc32_bootloader(A)` (R139). -/
def crc32Bootloader (a : List Byte) : BitVec 32 :=
  ~~~(a.foldl crc32Step crc32Init)

end Sys2Proof.Machine
end

