-- ==== Sys2Proof/Config.lean ====
section
/-! DEFINITION. The open parameters of the block (spec/00_scope.md R6) as plain data, the content of the messages
(spec/43_messages.md R221 to R224), what the link may answer to a call (spec/20_memory.md R64), and the free values:
constants with no body, so that nothing can be proved of their values. -/

namespace Sys2Proof

/-- A request body (R221); field types of R224. -/
inductive RequestBody where
  | handshake (capabilities maxPacketSize : Word)
  | prepare (totalDataLength : Word) (verifyAfterProgram : Bool)
  | dataPacket (offset : Word) (data : List Byte) (dataCrc32 : Word)
  deriving DecidableEq, Repr

/-- A request envelope (R222). -/
structure Request where
  sequenceId : Word
  body : RequestBody
  deriving DecidableEq, Repr

/-- A response body: a tagged union of exactly two variants (R221, R225). -/
inductive ResponseBody where
  | handshakeResponse (bootloaderVersion : List Byte) (supportedCapabilities flashPageSize : Word)
  | ack (success : Bool) (message : List Byte)
  deriving DecidableEq, Repr

/-- A response envelope (R222). -/
structure Response where
  sequenceId : Word
  result : Word
  body : ResponseBody
  deriving DecidableEq, Repr

/-- What the link answers to one `TxWrite(A)` (R64, R66, U13 of spec/93_implementation_defined.md). -/
inductive TxAnswer where
  /-- The link accepts the first `n` bytes of the list, all of it when `n` is at least its length. -/
  | accepted (n : Nat)
  /-- `TransportError`: no byte of the list is accepted (R40 counts 0; log entry 5). -/
  | transportError
  /-- `SIG.RESET` comes while the list is being written, after its first `n` bytes (R352, U20). -/
  | resetDuring (n : Nat)
  deriving DecidableEq, Repr, Inhabited

/-- What the link answers to one `LinkOpen` (R64). -/
inductive OpenAnswer where
  /-- `ok`: the link is open. -/
  | opened
  /-- `TransportError`. -/
  | transportError
  /-- `SIG.RESET` comes during the call or before the response (R350; log entry 6). -/
  | resetDuring
  deriving DecidableEq, Repr, Inhabited

/-- How one `LinkClose`, which answers nothing (R64), ends. -/
inductive CloseAnswer where
  /-- The call returns. -/
  | closed
  /-- `SIG.RESET` comes during the call or before the response (R350; log entry 6). -/
  | resetDuring
  deriving DecidableEq, Repr, Inhabited

/-- The parameter `MSGCODEC` (R226): which pair of functions `MsgEnc`, `MsgDec` the block uses. -/
inductive MsgCodec where
  /-- `MSGCODEC_REF`, the default (R230 to R236). -/
  | reference
  /-- Any other codec: the free functions `Config.deviceMsgEnc` and `Config.deviceMsgDec`. -/
  | device
  deriving DecidableEq, Repr

/-- The open parameters of R6 that a rule depends on. They are fixed for the machine: no operation changes them (R351).
`T_READ` and `BASE` are left out because no rule depends on them (R6). -/
structure Params where
  codec : MsgCodec
  msgVersion : Word
  capabilities : Word
  maxPacketSize : Word
  rxAttempts : Nat
  dataMax : Nat
  logMax : Nat
  deriving DecidableEq, Repr

/-- The defaults of R6; `CAPABILITIES` and `MAX_PACKET_SIZE`, which have no default, at the values its vectors use
(DESIGN CHOICE, log entry 8). -/
def Params.default : Params where
  codec := .reference
  msgVersion := 1
  capabilities := 1
  maxPacketSize := 1024
  rxAttempts := 1
  dataMax := 1024
  logMax := 16

/-- The parameters fit the registers that hold them: `DBUF_LEN` is 32 bits wide and takes the values 0 to
`DATA_MAX + 1` (R38), `LOG_COUNT` is 32 bits wide (R40), and an exchange makes at least one attempt (R43). -/
abbrev Params.wf (p : Params) : Prop :=
  p.dataMax + 1 < 2 ^ 32 ∧ p.logMax < 2 ^ 32 ∧ 1 ≤ p.rxAttempts

/-- FREE VALUE. What a buffer byte reads as that nothing has written since the buffers' contents last became
unspecified (R44, U6): one value for each count of such events and each buffer address (log entry 10). -/
opaque Config.unspecifiedByte : Nat → Nat → Byte

/-- FREE VALUE. What the link answers to the `TxWrite` that is its `k`-th call, where the state lists no answer
(U13; log entry 5). -/
opaque Config.linkWriteAnswer : Nat → TxAnswer

/-- FREE VALUE. What the link answers to the `LinkOpen` that is its `k`-th call, where the state lists no answer
(R64, U14; log entry 7). -/
opaque Config.linkOpenAnswer : Nat → OpenAnswer

/-- FREE VALUE. How the `LinkClose` that is the link's `k`-th call ends, where the state lists no answer (R64, R350;
log entry 7). -/
opaque Config.linkCloseAnswer : Nat → CloseAnswer

/-- FREE VALUE. `MsgEnc` of a codec other than the reference one (R226, U7; log entry 9). A statement that uses a law of R226
has it as a premise, `Machine.OpenCodecHasLaws` of Safety.lean. -/
opaque Config.deviceMsgEnc : Request → List Byte

/-- FREE VALUE. `MsgDec` of a codec other than the reference one; `none` is `MessageDecodeError` (R226, U7; log entry 9). -/
opaque Config.deviceMsgDec : List Byte → Option Response

end Sys2Proof
end

