-- ==== Sys2Proof/Machine/State.lean ====
section
/-! DEFINITION. The state of the block (spec/10_state.md R20 to R44) and of its ports (spec/20_memory.md R61, R64,
spec/30_encoding.md R101 to R105) as plain data, the state after reset (R44, R350), and the reasons a step can stop. -/

namespace Sys2Proof.Machine

/-- The eight decoder states, `RX_STATE` (R28). -/
inductive RxState where
  | idle
  | syncing
  | readingLength
  | readingPayload
  | readingCrc
  | readingEnd
  | complete
  | failed
  deriving DecidableEq, Repr

/-- The six client states, `CL_STATE` (R35). -/
inductive ClState where
  | disconnected
  | connected
  | handshakeDone
  | prepared
  | dataSent
  | verified
  deriving DecidableEq, Repr

/-- The error kinds (R312), in the order of their codes. -/
inductive ErrKind where
  | none
  | transportError
  | frameSyncTimeout
  | frameReadTimeout
  | frameCrcMismatch
  | frameEndMismatch
  | messageDecodeError
  | protocolSequenceError
  | phaseFailure
  | scenarioConfigError
  | frameLengthInvalid
  | frameEscapeViolation
  | framePayloadTooLong
  | interrupted
  | cmdRefused
  deriving DecidableEq, Repr

/-- The four phases of a session, in order (R223, R250). -/
inductive Phase where
  | handshake
  | prepare
  | transfer
  | verify
  deriving DecidableEq, Repr

/-- The five byte buffers (R60). -/
inductive Space where
  | rxbuf
  | txbuf
  | dbuf
  | bootver
  | ackmsg
  deriving DecidableEq, Repr

/-- The registers of the Checksum Engine (R25, R26). -/
structure Engine where
  /-- `CRC16` (R25). -/
  crc16 : BitVec 16
  /-- `CRC32`, before the final inversion (R26). -/
  crc32 : BitVec 32
  deriving DecidableEq, Repr

/-- The registers of the frame decoder (R28 to R33). -/
structure Decoder where
  /-- `RX_STATE` (R28). -/
  state : RxState
  /-- `RX_ERR` (R29). -/
  err : ErrKind
  /-- `RX_LENB[0]` (R30). -/
  lenb0 : Byte
  /-- `RX_LENB[1]` (R30). -/
  lenb1 : Byte
  /-- `RX_LEN` (R30). -/
  len : BitVec 16
  /-- `RX_CNT` (R31). -/
  cnt : BitVec 11
  /-- `RX_ESC` (R31). -/
  esc : Bool
  /-- `RX_IDX` (R31): false while the first byte of a two-byte field is expected, true for the second. -/
  idx : Bool
  /-- `RX_CRC` (R32). -/
  crc : BitVec 16
  /-- `RX_DISCARD` (R33). -/
  discard : BitVec 32
  deriving DecidableEq, Repr

/-- A record of the transmission log (R40). -/
structure LogRecord where
  /-- `frame_type`, 3 bits: 1 handshake, 2 prepare, 3 data, 4 verify. -/
  frameType : BitVec 3
  /-- `total_len`, 12 bits. -/
  totalLen : BitVec 12
  /-- `payload_len`, 11 bits. -/
  payloadLen : BitVec 11
  /-- `bytes_written`, 12 bits. -/
  bytesWritten : BitVec 12
  /-- `success`, 1 bit. -/
  success : Bool
  deriving DecidableEq, Repr

/-- The registers of the Protocol Client (R35 to R37, R39 to R41). -/
structure Client where
  /-- `CL_STATE` (R35). -/
  state : ClState
  /-- `SEQ` (R36). -/
  seq : BitVec 32
  /-- `LAST_RESULT` (R37). -/
  lastResult : BitVec 32
  /-- `BOOTVER_LEN` (R37). -/
  bootverLen : BitVec 11
  /-- `SUP_CAPS` (R37). -/
  supCaps : BitVec 32
  /-- `FLASH_PAGE` (R37). -/
  flashPage : BitVec 32
  /-- `ACK_SUCCESS` (R37). -/
  ackSuccess : Bool
  /-- `ACKMSG_LEN` (R37). -/
  ackmsgLen : BitVec 11
  /-- `STAGED_LEN` (R39). -/
  stagedLen : BitVec 32
  /-- `BYTES_XFER` (R39). -/
  bytesXfer : BitVec 32
  /-- `FAILED_PHASE` (R41); `none` is its value 0. -/
  failedPhase : Option Phase
  /-- The transmission log, oldest record first (R40); its length is `LOG_COUNT`. -/
  log : List LogRecord
  /-- `LOG_OVF` (R40). -/
  logOvf : Bool
  deriving DecidableEq, Repr

/-- The hidden state of a multi-step command that waits for receive events (R43). `BUSY` (R24) is 1 exactly when it is
not `idle`. -/
inductive Progress where
  /-- No command is in progress. -/
  | idle
  /-- `DEC.START` is in progress. -/
  | decode
  /-- The exchange of a phase is in progress, alone or inside `CL.RUN_SESSION`, in its `attempt`-th decode attempt. -/
  | exchange (phase : Phase) (session : Bool) (attempt : Nat)
  deriving DecidableEq, Repr

/-- The bytes of the five buffers that have been written, as pairs of a buffer address (`Memory.addr`) and a byte,
addresses strictly rising. An address that is not listed has no specified value (R44). -/
abbrev Memory := List Host.Cell

/-- A call the block has made to the link (R64). `RxNext` is seen in the receive stream. -/
inductive LinkCall where
  /-- `LinkOpen()`. -/
  | linkOpen
  /-- `TxWrite(A)`. -/
  | txWrite (bytes : List Byte)
  /-- `TxFlush()`. -/
  | txFlush
  /-- `LinkClose()`. -/
  | linkClose
  deriving DecidableEq, Repr

/-- The link boundary (R61, R64): environment, not state of the block (R20). -/
structure Link where
  /-- The receive stream: the symbols of the events the link has not yet handed over, first one first (R61, R66). -/
  rx : List RxSymbol
  /-- The transmit stream: all bytes the link has accepted, in order (R61). -/
  tx : List Byte
  /-- The calls the block has made to the link, in order. -/
  calls : List LinkCall
  /-- What the link will answer to the next `TxWrite` calls. -/
  writeAnswers : List TxAnswer
  /-- What the link will answer to the next `LinkOpen` calls. -/
  openAnswers : List OpenAnswer
  /-- How the next `LinkClose` calls will end. -/
  closeAnswers : List CloseAnswer
  deriving DecidableEq, Repr

/-- The command port, the response port and the two wires (R101, R102, R105): environment, not state of the block. -/
structure Ports where
  /-- The command words the host has presented and the block has not yet accepted, first one first. -/
  cmd : List CmdWord
  /-- The response words the block has emitted, in order. -/
  resp : List RespWord
  /-- The samples of the two wires at the next steps; with none left both wires are 0. -/
  wires : List WireSample
  deriving DecidableEq, Repr

/-- The state of the block and of its ports. -/
structure State where
  /-- The Checksum Engine. -/
  engine : Engine
  /-- `TX_LEN` (R27). -/
  txLen : BitVec 11
  /-- The frame decoder. -/
  dec : Decoder
  /-- `DBUF_LEN` (R38). -/
  dbufLen : BitVec 32
  /-- The Protocol Client. -/
  cl : Client
  /-- `LAST_ERR` (R41). -/
  lastErr : ErrKind
  /-- The command in progress (R43); not `idle` is `BUSY` (R24). -/
  progress : Progress
  /-- The buffers TXBUF, RXBUF, DBUF, BOOTVER, ACKMSG (R60). -/
  mem : Memory
  /-- The model's own: how often a buffer's contents have become unspecified (argument of `Config.unspecifiedByte`). -/
  epoch : Nat
  /-- The link. -/
  link : Link
  /-- The ports on the host's side and the wires. -/
  port : Ports
  /-- The open parameters (R6). -/
  params : Params
  deriving DecidableEq, Repr

/-- `BUSY` (R24). -/
def State.busy (s : State) : Bool := s.progress ≠ .idle

/-- The Checksum Engine after reset (R42). -/
def Engine.reset : Engine where
  crc16 := 0xFFFF
  crc32 := 0xFFFFFFFF

/-- The decoder after reset (R42, R44) and after `DEC.RESET` (R182). -/
def Decoder.reset : Decoder where
  state := .idle
  err := .none
  lenb0 := 0
  lenb1 := 0
  len := 0
  cnt := 0
  esc := false
  idx := false
  crc := 0
  discard := 0

/-- The client after reset (R42, R44). -/
def Client.reset : Client where
  state := .disconnected
  seq := 0
  lastResult := 0
  bootverLen := 0
  supCaps := 0
  flashPage := 0
  ackSuccess := false
  ackmsgLen := 0
  stagedLen := 0
  bytesXfer := 0
  failedPhase := none
  log := []
  logOvf := false

/-- A link that has delivered and accepted nothing yet (DESIGN CHOICE, log entry 18). -/
def Link.fresh : Link where
  rx := []
  tx := []
  calls := []
  writeAnswers := []
  openAnswers := []
  closeAnswers := []

/-- Ports at which nothing has happened yet (DESIGN CHOICE, log entry 18). -/
def Ports.fresh : Ports where
  cmd := []
  resp := []
  wires := []

/-- The machine right after reset (R44): every register at the value of R42, the buffers unspecified. -/
def State.reset : State where
  engine := Engine.reset
  txLen := 0
  dec := Decoder.reset
  dbufLen := 0
  cl := Client.reset
  lastErr := .none
  progress := .idle
  mem := []
  epoch := 0
  link := Link.fresh
  port := Ports.fresh
  params := Params.default

/-- The reasons a step can stop with a fault. -/
inductive Fault where
  /-- Raised by `step` alone, when the link hands over a symbol from 0x102 to 0x1FF, which R104 says no link produces.
  Safe: the block's rules give such a symbol no effect, and every operation of the opcode table goes on. -/
  | reservedReceiveSymbol
  deriving DecidableEq, Repr

/-- The reasons an instruction can be refused by the model. -/
inductive Refusal where
  /-- Raised by an arm of `exec` whose instruction has no meaning yet. Safe. No arm raises it: every instruction of the
  opcode table has its meaning. -/
  | notModelled (mnemonic : String)
  deriving DecidableEq, Repr

end Sys2Proof.Machine
end

