-- ==== Sys2Proof/Machine/Flags.lean ====
section
/-! DEFINITION. The codes of the state registers and error kinds (spec/10_state.md R28, R35, R41, spec/60_exceptions.md
R312), the overflow flags, and the `STATUS` view (R23). -/

namespace Sys2Proof.Machine

/-- The 3-bit code of a decoder state (R28). -/
def RxState.code : RxState → BitVec 3
  | .idle => 0
  | .syncing => 1
  | .readingLength => 2
  | .readingPayload => 3
  | .readingCrc => 4
  | .readingEnd => 5
  | .complete => 6
  | .failed => 7

/-- The reading states, in which the decoder reads the link (R28). -/
def RxState.reading : RxState → Bool
  | .syncing | .readingLength | .readingPayload | .readingCrc | .readingEnd => true
  | .idle | .complete | .failed => false

/-- The 3-bit code of a client state (R35). -/
def ClState.code : ClState → BitVec 3
  | .disconnected => 0
  | .connected => 1
  | .handshakeDone => 2
  | .prepared => 3
  | .dataSent => 4
  | .verified => 5

/-- The 8-bit code of an error kind (R312). -/
def ErrKind.code : ErrKind → BitVec 8
  | .none => 0x00
  | .transportError => 0x01
  | .frameSyncTimeout => 0x02
  | .frameReadTimeout => 0x03
  | .frameCrcMismatch => 0x04
  | .frameEndMismatch => 0x05
  | .messageDecodeError => 0x06
  | .protocolSequenceError => 0x07
  | .phaseFailure => 0x08
  | .scenarioConfigError => 0x09
  | .frameLengthInvalid => 0x0A
  | .frameEscapeViolation => 0x0B
  | .framePayloadTooLong => 0x0C
  | .interrupted => 0x0D
  | .cmdRefused => 0x0E

/-- The number of a phase, which is also the sequence id of its request and the frame type of its log record
(R40, R41, R223). -/
def Phase.number : Phase → Nat
  | .handshake => 1
  | .prepare => 2
  | .transfer => 3
  | .verify => 4

/-- `FAILED_PHASE` as a 3-bit code: 0 for none (R41). -/
def failedPhaseCode : Option Phase → BitVec 3
  | none => 0
  | some p => BitVec.ofNat 3 p.number

/-- A flag as one bit. -/
def flagBit (b : Bool) : BitVec 1 := BitVec.ofBool b

/-- `TX_OVF`: more than 1024 bytes were pushed into TXBUF (R23, R27). -/
def txOvf (s : State) : Bool := s.txLen.toNat > 1024

/-- `DBUF_OVF`: more than `DATA_MAX` bytes were pushed into DBUF (R23, R38). -/
def dbufOvf (s : State) : Bool := s.dbufLen.toNat > s.params.dataMax

/-- `LOG_COUNT`: the number of records in the log (R40). -/
def logCount (s : State) : BitVec 32 := BitVec.ofNat 32 s.cl.log.length

/-- The `STATUS` word (R23): from bit 31 down, two reserved bits 0, `LOG_OVF`, `DBUF_OVF`, `TX_OVF`, `FAILED_PHASE`,
`LAST_ERR`, `RX_ERR`, `BUSY`, `CL_STATE`, `RX_ESC`, `RX_STATE`. -/
def statusWord (s : State) : Word :=
  (0 : BitVec 2) ++ flagBit s.cl.logOvf ++ flagBit (dbufOvf s) ++ flagBit (txOvf s) ++
    failedPhaseCode s.cl.failedPhase ++ s.lastErr.code ++ s.dec.err.code ++ flagBit s.busy ++
    s.cl.state.code ++ flagBit s.dec.esc ++ s.dec.state.code

end Sys2Proof.Machine
end

