-- ==== Sys2Proof/Machine/Memory.lean ====
section
/-! DEFINITION. The five byte buffers (spec/20_memory.md R60, R63) as one list of (address, byte) pairs in a canonical
form: addresses strictly rising. An address that is not listed holds no value, so no entry can equal it. -/

namespace Sys2Proof.Machine

/-- The space id of a buffer (R60). -/
def Space.id : Space → Nat
  | .rxbuf => 0
  | .txbuf => 1
  | .dbuf => 2
  | .bootver => 3
  | .ackmsg => 4

/-- The buffer with a given space id; ids 5 to 255 are reserved (R60, R71). -/
def Space.ofId : Nat → Option Space
  | 0 => some .rxbuf
  | 1 => some .txbuf
  | 2 => some .dbuf
  | 3 => some .bootver
  | 4 => some .ackmsg
  | _ => none

/-- The address of index `i` of a buffer: the space id above 32 index bits (log entry 10). -/
def Memory.addr (sp : Space) (i : Nat) : Nat := sp.id * 2 ^ 32 + i

/-- The byte at an address, none where no byte is listed. -/
def Memory.readAt : Memory → Nat → Option Byte
  | [], _ => none
  | (a, b) :: m, x => if a = x then some b else Memory.readAt m x

/-- `MemWrite` of one byte (R8, R63), keeping the addresses strictly rising. -/
def Memory.writeAt : Memory → Nat → Byte → Memory
  | [], x, v => [(x, v)]
  | (a, b) :: m, x, v =>
    if x < a then (x, v) :: (a, b) :: m
    else if x = a then (x, v) :: m
    else (a, b) :: Memory.writeAt m x v

/-- The bytes of a list written at rising addresses from `x` on. -/
def Memory.writeList : Memory → Nat → List Byte → Memory
  | m, _, [] => m
  | m, x, b :: bs => Memory.writeList (m.writeAt x b) (x + 1) bs

/-- The memory with no byte of a buffer listed: the buffer's contents are unspecified (R34, R44). -/
def Memory.forget (m : Memory) (sp : Space) : Memory :=
  m.filter fun c => !(decide (Memory.addr sp 0 ≤ c.1) && decide (c.1 < Memory.addr sp (2 ^ 32)))

/-- The canonical form: every address is greater than the ones before it. -/
def Memory.wf : Memory → Bool
  | [] => true
  | [_] => true
  | (a, _) :: (a', b') :: m => decide (a < a') && Memory.wf ((a', b') :: m)

end Sys2Proof.Machine
end

