-- ==== Sys2Proof/Machine/Operands.lean ====
section
/-! DEFINITION. What the operands of the reading commands name: the registers by number (spec/10_state.md R42), the
buffers by space id and their valid lengths (spec/20_memory.md R60, spec/45_host_access.md R301), the fields of a log
record (R302), and the bytes of a buffer. -/

namespace Sys2Proof.Machine

/-- The register with number `r`, zero-extended to 32 bits; none for a reserved number (R42, R300). -/
def readRegister (s : State) (r : Nat) : Option Word :=
  match r with
  | 0x00 => some (statusWord s)
  | 0x01 => some (s.engine.crc16.setWidth 32)
  | 0x02 => some s.engine.crc32
  | 0x03 => some (s.txLen.setWidth 32)
  | 0x04 => some (s.dec.len.setWidth 32)
  | 0x05 => some (s.dec.cnt.setWidth 32)
  | 0x06 => some (s.dec.crc.setWidth 32)
  | 0x07 => some s.dec.discard
  | 0x08 => some (s.dec.err.code.setWidth 32)
  | 0x09 => some s.cl.seq
  | 0x0A => some s.cl.flashPage
  | 0x0B => some s.cl.supCaps
  | 0x0C => some (s.cl.bootverLen.setWidth 32)
  | 0x0D => some s.cl.lastResult
  | 0x0E => some ((flagBit s.cl.ackSuccess).setWidth 32)
  | 0x0F => some (s.cl.ackmsgLen.setWidth 32)
  | 0x10 => some s.dbufLen
  | 0x11 => some s.cl.stagedLen
  | 0x12 => some s.cl.bytesXfer
  | 0x13 => some (logCount s)
  | 0x14 => some (s.lastErr.code.setWidth 32)
  | 0x15 => some ((failedPhaseCode s.cl.failedPhase).setWidth 32)
  | 0x16 => some (s.dec.state.code.setWidth 32)
  | 0x17 => some (s.cl.state.code.setWidth 32)
  | _ => none

/-- How many bytes of a buffer are valid (R60). RXBUF has valid bytes only in `Complete` (R34). -/
def validLength (s : State) : Space → Nat
  | .rxbuf => if s.dec.state = .complete then s.dec.len.toNat else 0
  | .txbuf => min s.txLen.toNat 1024
  | .dbuf => min s.dbufLen.toNat s.params.dataMax
  | .bootver => s.cl.bootverLen.toNat
  | .ackmsg => s.cl.ackmsgLen.toNat

/-- `MemRead` of one byte (R8, R63). A byte that nothing has written since the contents last became unspecified is a
free value (R44, U6; log entry 10). -/
def bufferByte (s : State) (sp : Space) (i : Nat) : Byte :=
  match s.mem.readAt (Memory.addr sp i) with
  | some b => b
  | none => Config.unspecifiedByte s.epoch (Memory.addr sp i)

/-- `SPACE[0 .. n)` (R8). -/
def bufferBytes (s : State) (sp : Space) (n : Nat) : List Byte :=
  (List.range n).map (bufferByte s sp)

/-- The value `BUF.READ` answers: none for a reserved space id and for an index that is not valid (R301). -/
def readBuffer (s : State) (spaceId index : Nat) : Option Word :=
  match Space.ofId spaceId with
  | some sp => if index < validLength s sp then some ((bufferByte s sp index).setWidth 32) else none
  | none => none

/-- Field `f` of a log record, zero-extended; none for a selector above 4 (R302). -/
def recordField (r : LogRecord) (f : Nat) : Option Word :=
  match f with
  | 0 => some (r.frameType.setWidth 32)
  | 1 => some (r.totalLen.setWidth 32)
  | 2 => some (r.payloadLen.setWidth 32)
  | 3 => some (r.bytesWritten.setWidth 32)
  | 4 => some ((flagBit r.success).setWidth 32)
  | _ => none

/-- The value `LOG.READ` answers; none where there is no such record or field (R302). -/
def readLog (s : State) (index f : Nat) : Option Word :=
  match s.cl.log[index]? with
  | some r => recordField r f
  | none => none

/-- The payload in TXBUF, `TXBUF[0 .. TX_LEN)` (R166). -/
def txPayload (s : State) : List Byte := bufferBytes s .txbuf s.txLen.toNat

/-- The payload in RXBUF, `RXBUF[0 .. RX_LEN)` (R34). -/
def rxPayload (s : State) : List Byte := bufferBytes s .rxbuf s.dec.len.toNat

/-- The staged data `D`, `DBUF[0 .. DBUF_LEN)` (R256). -/
def stagedData (s : State) : List Byte := bufferBytes s .dbuf s.dbufLen.toNat

end Sys2Proof.Machine
end

