-- ==== Sys2Proof/Machine/Ops.lean ====
section
/-! DEFINITION. The operations over the state that the meanings share: accepting a command, answering it, reporting an
error (spec/60_exceptions.md R310 to R318: an error is a status value, there is no handler to enter and nothing to
return to), writing the buffers, the calls to the link (spec/20_memory.md R64), and reset (spec/70_reset_and_hazards.md
R350). -/

namespace Sys2Proof.Machine

/-- A command at the command port: while `BUSY` is 1 the block accepts none, so nothing happens (R24; log entry 13). -/
def accept (s : State) (f : State → State) : State := if s.busy then s else f s

/-- `respond(status, value)`: the command is complete. `BUSY` becomes 0, the response word is emitted and `LAST_ERR`
takes its status (R24, R41, R102). With a status other than `None` this is how an error is reported (R310, R314). -/
def respond (status : ErrKind) (value : Word) (s : State) : State :=
  { s with
    lastErr := status
    progress := .idle
    port := { s.port with resp := s.port.resp ++ [status.code ++ value] } }

/-- A refused command: nothing but its response (R318). -/
def refuse (s : State) : State := respond .cmdRefused 0 s

/-- A command whose answer is a value that may not exist: answered where it does, refused where not (R300 to R302). -/
def answer (value : Option Word) (s : State) : State :=
  match value with
  | some v => respond .none v s
  | none => refuse s

/-- The bytes of a list written from index `i` of a buffer on (R8). -/
def writeBuffer (sp : Space) (i : Nat) (bytes : List Byte) (s : State) : State :=
  { s with mem := s.mem.writeList (Memory.addr sp i) bytes }

/-- RXBUF's contents become unspecified (R34, R182, R192; log entry 11). -/
def forgetRxbuf (s : State) : State :=
  { s with mem := s.mem.forget .rxbuf, epoch := s.epoch + 1 }

/-- `fail(E)` of the decoder (R192). -/
def rxFail (e : ErrKind) (s : State) : State :=
  forgetRxbuf { s with dec := { s.dec with state := .failed, err := e } }

/-- What `DEC.RESET` does to the decoder (R182). -/
def resetDecoder (s : State) : State := forgetRxbuf { s with dec := Decoder.reset }

/-- What `DEC.START` does to the decoder before its first read (R181). -/
def startDecoder (s : State) : State := { s with dec := { Decoder.reset with state := .syncing } }

/-- The link's answer to its next `TxWrite`: the next one listed, or a free value (U13; log entry 5). -/
def nextWriteAnswer (l : Link) : TxAnswer :=
  match l.writeAnswers with
  | a :: _ => a
  | [] => Config.linkWriteAnswer l.calls.length

/-- How many bytes of a list of `len` bytes an answer accepts (R64: at most `len`). -/
def acceptedCount (a : TxAnswer) (len : Nat) : Nat :=
  match a with
  | .accepted n => min n len
  | .transportError => 0
  | .resetDuring n => min n len

/-- `TxWrite(A)`: the accepted bytes go to the end of the transmit stream (R61, R64). Which answer it was is
`nextWriteAnswer` of the state before. -/
def txWrite (bytes : List Byte) (s : State) : State :=
  { s with
    link := { s.link with
      tx := s.link.tx ++ bytes.take (acceptedCount (nextWriteAnswer s.link) bytes.length)
      calls := s.link.calls ++ [.txWrite bytes]
      writeAnswers := s.link.writeAnswers.tail } }

/-- `TxFlush()` (R69). -/
def txFlush (s : State) : State := { s with link := { s.link with calls := s.link.calls ++ [.txFlush] } }

/-- The link's answer to its next `LinkOpen`: the next one listed, or a free value (R64; log entry 7). -/
def nextOpenAnswer (l : Link) : OpenAnswer :=
  match l.openAnswers with
  | a :: _ => a
  | [] => Config.linkOpenAnswer l.calls.length

/-- `LinkOpen()`. Which answer it was is `nextOpenAnswer` of the state before (R64). -/
def linkOpen (s : State) : State :=
  { s with
    link := { s.link with calls := s.link.calls ++ [.linkOpen], openAnswers := s.link.openAnswers.tail } }

/-- How the link's next `LinkClose` ends: as listed, or a free value (R64; log entry 7). -/
def nextCloseAnswer (l : Link) : CloseAnswer :=
  match l.closeAnswers with
  | a :: _ => a
  | [] => Config.linkCloseAnswer l.calls.length

/-- `LinkClose()`. How it ended is `nextCloseAnswer` of the state before (R64). -/
def linkClose (s : State) : State :=
  { s with
    link := { s.link with calls := s.link.calls ++ [.linkClose], closeAnswers := s.link.closeAnswers.tail } }

/-- One more record of the transmission log; when the log is full the record is dropped and `LOG_OVF` set (R40). -/
def logAppend (r : LogRecord) (s : State) : State :=
  if s.cl.log.length < s.params.logMax then { s with cl := { s.cl with log := s.cl.log ++ [r] } }
  else { s with cl := { s.cl with logOvf := true } }

/-- What reset does (R350, R351): every register takes its reset value, the buffers become unspecified, no response is
emitted; the link, the ports and the parameters stay as they are. -/
def resetBlock (s : State) : State :=
  { State.reset with
    mem := []
    epoch := s.epoch + 1
    link := s.link
    port := s.port
    params := s.params }

end Sys2Proof.Machine
end

