-- ==== Sys2Proof/Machine/Crc.lean ====
section
/-! DEFINITION. The operations of the Checksum Engine (spec/40_crc.md R130 to R138). None can fail. -/

namespace Sys2Proof.Machine

/-- `CRC16.INIT` (R131). -/
def execCrc16Init (s : State) : Host.Outcome State Fault Refusal :=
  .next (accept s fun s => respond .none 0 { s with engine := { s.engine with crc16 := crc16Init } })

/-- `CRC16.UPDATE b` (R132). -/
def execCrc16Update (b : Byte) (s : State) : Host.Outcome State Fault Refusal :=
  .next (accept s fun s => respond .none 0 { s with engine := { s.engine with crc16 := crc16Step s.engine.crc16 b } })

/-- `CRC16.READ` (R133): the register as it is. -/
def execCrc16Read (s : State) : Host.Outcome State Fault Refusal :=
  .next (accept s (respond .none (s.engine.crc16.setWidth 32)))

/-- `CRC32.INIT` (R136). -/
def execCrc32Init (s : State) : Host.Outcome State Fault Refusal :=
  .next (accept s fun s => respond .none 0 { s with engine := { s.engine with crc32 := crc32Init } })

/-- `CRC32.UPDATE b` (R137). -/
def execCrc32Update (b : Byte) (s : State) : Host.Outcome State Fault Refusal :=
  .next (accept s fun s => respond .none 0 { s with engine := { s.engine with crc32 := crc32Step s.engine.crc32 b } })

/-- `CRC32.READ` (R138): the bitwise NOT of the register, which keeps its value. -/
def execCrc32Read (s : State) : Host.Outcome State Fault Refusal :=
  .next (accept s (respond .none (~~~s.engine.crc32)))

end Sys2Proof.Machine
end

