-- ==== Sys2Proof/Machine/Frame.lean ====
section
/-! DEFINITION. The wire frame and the escape transform (spec/30_encoding.md R90 to R97, spec/41_frame_encoder.md
R163) as functions. -/

namespace Sys2Proof.Machine

/-- `SOF` (R90). -/
def sofByte : Byte := 0x7E

/-- `EOF` (R90). -/
def eofByte : Byte := 0x7F

/-- `ESC` (R94). -/
def escByte : Byte := 0x7D

/-- `ESC_XOR` (R94). -/
def escXor : Byte := 0x20

/-- `MAX_PAYLOAD` (R91). -/
def maxPayload : Nat := 1024

/-- `be16(v)`: the more significant byte first (R8, R62). -/
def be16 (v : BitVec 16) : List Byte := [v.extractLsb' 8 8, v.extractLsb' 0 8]

/-- The payload bytes that are escaped (R94). -/
def needsEscape (b : Byte) : Bool := b == sofByte || b == eofByte || b == escByte

/-- The wire bytes of one payload byte (R94). -/
def escapeOne (b : Byte) : List Byte := if needsEscape b then [escByte, b ^^^ escXor] else [b]

/-- `Escape` (R94). -/
def escape (p : List Byte) : List Byte := p.flatMap escapeOne

/-- The bytes that may follow `0x7D` on the wire: `0x5E`, `0x5F`, `0x5D` (R97). -/
def escapePartner (b : Byte) : Bool := b == 0x5E || b == 0x5F || b == 0x5D

/-- `Unescape`, defined only on the image of `Escape`; none is an escape violation (R97). -/
def unescape : List Byte → Option (List Byte)
  | [] => some []
  | b :: rest =>
    if b = escByte then
      match rest with
      | [] => none
      | c :: rest' => if escapePartner c then (unescape rest').map ((c ^^^ escXor) :: ·) else none
    else if needsEscape b then none
    else (unescape rest).map (b :: ·)

/-- The bytes the frame's CRC covers: the two length bytes and the unescaped payload (R93). -/
def crcInput (p : List Byte) : List Byte := be16 (BitVec.ofNat 16 p.length) ++ p

/-- The frame of a payload of at most 1024 bytes (R92). -/
def frameBytes (p : List Byte) : List Byte :=
  sofByte :: be16 (BitVec.ofNat 16 p.length) ++ escape p ++ be16 (crc16Ccitt (crcInput p)) ++ [eofByte]

/-- `FrameEncode(P)` (R163); none is `FramePayloadTooLong`. -/
def frameEncode (p : List Byte) : Option (List Byte) :=
  if p.length > maxPayload then none else some (frameBytes p)

end Sys2Proof.Machine
end

