-- ==== Sys2Proof/Machine/Encoder.lean ====
section
/-! DEFINITION. The frame encoder's operations (spec/41_frame_encoder.md R164 to R167). -/

namespace Sys2Proof.Machine

/-- `TXBUF.CLEAR` (R164). The bytes are not erased. -/
def execTxbufClear (s : State) : Host.Outcome State Fault Refusal :=
  .next (accept s fun s => respond .none 0 { s with txLen := 0 })

/-- The push of R165: stored below 1024 bytes, otherwise only remembered as the length 1025. -/
def pushTxbuf (b : Byte) (s : State) : State :=
  if s.txLen.toNat < 1024 then { writeBuffer .txbuf s.txLen.toNat [b] s with txLen := s.txLen + 1 }
  else { s with txLen := 1025 }

/-- `TXBUF.PUSH b` (R165): the response carries the new `TX_LEN`. -/
def execTxbufPush (b : Byte) (s : State) : Host.Outcome State Fault Refusal :=
  .next (accept s fun s => respond .none ((pushTxbuf b s).txLen.setWidth 32) (pushTxbuf b s))

/-- The write half of `ENC.FRAME` for a frame (R166); a reset during the write ends it without a response (R352). -/
def sendFrame (frame : List Byte) (s : State) : State :=
  match nextWriteAnswer s.link with
  | .transportError => respond .transportError 0 (txWrite frame s)
  | .resetDuring _ => resetBlock (txWrite frame s)
  | .accepted n =>
    if n < frame.length then respond .transportError (BitVec.ofNat 32 n) (txFlush (txWrite frame s))
    else respond .none (BitVec.ofNat 32 frame.length) (txFlush (txWrite frame s))

/-- `ENC.FRAME` (R166): `TX_LEN` above 1024 is `FramePayloadTooLong` and nothing is emitted. -/
def execEncFrame (s : State) : Host.Outcome State Fault Refusal :=
  .next (accept s fun s =>
    if s.txLen.toNat > maxPayload then respond .framePayloadTooLong 0 s
    else sendFrame (frameBytes (txPayload s)) s)

end Sys2Proof.Machine
end

