-- ==== Sys2Proof/Machine/HostAccess.lean ====
section
/-! DEFINITION. The host access operations (spec/45_host_access.md R300 to R303). -/

namespace Sys2Proof.Machine

/-- `NOP` (R303). -/
def execNop (s : State) : Host.Outcome State Fault Refusal :=
  .next (accept s (respond .none 0))

/-- `RD r` (R300). -/
def execRd (r : BitVec 8) (s : State) : Host.Outcome State Fault Refusal :=
  .next (accept s (answer (readRegister s r.toNat)))

/-- `BUF.READ s, i` (R301). -/
def execBufRead (sp : BitVec 8) (i : BitVec 24) (s : State) : Host.Outcome State Fault Refusal :=
  .next (accept s (answer (readBuffer s sp.toNat i.toNat)))

/-- `LOG.READ i, f` (R302). -/
def execLogRead (i f : BitVec 8) (s : State) : Host.Outcome State Fault Refusal :=
  .next (accept s (answer (readLog s i.toNat f.toNat)))

end Sys2Proof.Machine
end

