-- ==== Sys2Proof/Machine/Codec.lean ====
section
/-! DEFINITION. The Message Codec: `MSGCODEC_REF` (spec/43_messages.md R231 to R235) and the pair of functions that the
parameter `MSGCODEC` selects (R226). -/

namespace Sys2Proof.Machine

/-- The bytes of `Varint(v)` when at most `k + 1` bytes are left for it: seven bits a byte, least significant first. -/
def varintFuel : Nat → Nat → List Byte
  | 0, v => [BitVec.ofNat 8 (v % 128)]
  | k + 1, v => if v < 128 then [BitVec.ofNat 8 v] else BitVec.ofNat 8 (128 + v % 128) :: varintFuel k (v / 128)

/-- `Varint(v)` for `v < 2^32`, one to five bytes (R232). -/
def varint (v : Nat) : List Byte := varintFuel 4 v

/-- `Tag(f, w)` (R232). -/
def tag (f w : Nat) : List Byte := varint (f * 8 + w)

/-- `FV(f, v)`: a varint field (R232). -/
def fieldVarint (f v : Nat) : List Byte := tag f 0 ++ varint v

/-- `FL(f, A)`: a length-delimited field (R232). -/
def fieldBytes (f : Nat) (a : List Byte) : List Byte := tag f 2 ++ varint a.length ++ a

/-- `Body(body)` of a request (R233). -/
def requestBodyBytes : RequestBody → List Byte
  | .handshake c m => fieldBytes 3 (fieldVarint 1 c.toNat ++ fieldVarint 2 m.toNat)
  | .prepare t v => fieldBytes 4 (fieldVarint 1 t.toNat ++ fieldVarint 2 v.toNat)
  | .dataPacket o d crc => fieldBytes 5 (fieldVarint 1 o.toNat ++ fieldBytes 2 d ++ fieldVarint 3 crc.toNat)

/-- `MsgEnc` of `MSGCODEC_REF`: every field in the order of R233, whatever its value (R227, R233). -/
def refMsgEnc (version : Word) (r : Request) : List Byte :=
  fieldVarint 1 r.sequenceId.toNat ++ fieldVarint 2 version.toNat ++ requestBodyBytes r.body

/-- `RBody(body)` of a response (R234). -/
def responseBodyBytes : ResponseBody → List Byte
  | .handshakeResponse bv sc fp => fieldBytes 4 (fieldBytes 1 bv ++ fieldVarint 2 sc.toNat ++ fieldVarint 3 fp.toNat)
  | .ack ok msg => fieldBytes 5 (fieldVarint 1 ok.toNat ++ fieldBytes 2 msg)

/-- `RespEnc` of `MSGCODEC_REF` (R234). -/
def refRespEnc (version : Word) (r : Response) : List Byte :=
  fieldVarint 1 r.sequenceId.toNat ++ fieldVarint 2 version.toNat ++ fieldVarint 3 r.result.toNat ++
    responseBodyBytes r.body

/-- A varint of shortest length read from the front of a list when it may have `k + 1` bytes: its value and the rest
(R232, R235). A last byte 0 after a byte with bit 7 set is a longer spelling and is no varint. -/
def readVarintFuel : Nat → List Byte → Option (Nat × List Byte)
  | _, [] => none
  | 0, b :: rest => if b.toNat < 128 then some (b.toNat, rest) else none
  | k + 1, b :: rest =>
    if b.toNat < 128 then some (b.toNat, rest)
    else match readVarintFuel k rest with
      | some (v, rest') => if v = 0 then none else some (b.toNat % 128 + 128 * v, rest')
      | none => none

/-- A varint below `2^32` read from the front of a list (R235). -/
def readVarint (a : List Byte) : Option (Nat × List Byte) :=
  match readVarintFuel 4 a with
  | some (v, rest) => if v < 2 ^ 32 then some (v, rest) else none
  | none => none

/-- The tag of field `f` with wire type `w` taken off the front of a list (R232). -/
def readTag (f w : Nat) (a : List Byte) : Option (List Byte) :=
  match readVarint a with
  | some (v, rest) => if v = f * 8 + w then some rest else none
  | none => none

/-- A varint field read from the front of a list (R232). -/
def readFieldVarint (f : Nat) (a : List Byte) : Option (Nat × List Byte) :=
  (readTag f 0 a).bind readVarint

/-- A length-delimited field read from the front of a list (R232). -/
def readFieldBytes (f : Nat) (a : List Byte) : Option (List Byte × List Byte) :=
  match (readTag f 2 a).bind readVarint with
  | some (n, rest) => if n ≤ rest.length then some (rest.take n, rest.drop n) else none
  | none => none

/-- The fields of a `HandshakeResponse` body (R234), with nothing after them. -/
def readHandshakeResponse (a : List Byte) : Option ResponseBody :=
  match readFieldBytes 1 a with
  | some (bv, a1) =>
    match readFieldVarint 2 a1 with
    | some (sc, a2) =>
      match readFieldVarint 3 a2 with
      | some (fp, []) => some (.handshakeResponse bv (BitVec.ofNat 32 sc) (BitVec.ofNat 32 fp))
      | _ => none
    | none => none
  | none => none

/-- The fields of an `Ack` body (R234), with nothing after them; a boolean is the varint 0 or 1 (R232). -/
def readAck (a : List Byte) : Option ResponseBody :=
  match readFieldVarint 1 a with
  | some (ok, a1) =>
    match readFieldBytes 2 a1 with
    | some (msg, []) => if ok < 2 then some (.ack (ok == 1) msg) else none
    | _ => none
  | none => none

/-- The body of a response: exactly one of the two variants, with nothing after it (R225, R234, R235). -/
def readResponseBody (a : List Byte) : Option ResponseBody :=
  match readFieldBytes 4 a with
  | some (inner, []) => readHandshakeResponse inner
  | some (_, _ :: _) => none
  | none =>
    match readFieldBytes 5 a with
    | some (inner, []) => readAck inner
    | _ => none

/-- `MsgDec` of `MSGCODEC_REF`, the strict partial inverse of `RespEnc` (R235); none is `MessageDecodeError`. -/
def refMsgDec (version : Word) (a : List Byte) : Option Response :=
  match readFieldVarint 1 a with
  | some (seq, a1) =>
    match readFieldVarint 2 a1 with
    | some (ver, a2) =>
      if ver = version.toNat then
        match readFieldVarint 3 a2 with
        | some (result, a3) =>
          match readResponseBody a3 with
          | some body => some { sequenceId := BitVec.ofNat 32 seq, result := BitVec.ofNat 32 result, body := body }
          | none => none
        | none => none
      else none
    | none => none
  | none => none

/-- Every byte list of the response fits the buffer that keeps it, 1024 bytes (R60). -/
def responseFits (r : Response) : Bool :=
  match r.body with
  | .handshakeResponse bv _ _ => bv.length ≤ 1024
  | .ack _ msg => msg.length ≤ 1024

/-- `MsgEnc` of the codec the parameters select (R226); its laws are `MsgCodecLaws` of Safety.lean. -/
def msgEnc (p : Params) (r : Request) : List Byte :=
  match p.codec with
  | .reference => refMsgEnc p.msgVersion r
  | .device => Config.deviceMsgEnc r

/-- `MsgDec` of the codec the parameters select (R226); none is `MessageDecodeError`. R60 derives that a field of a
message in a 1024-byte payload is at most 1024 bytes long; a codec that answers a longer field is read as
`MessageDecodeError` (log entry 9). -/
def msgDec (p : Params) (a : List Byte) : Option Response :=
  match p.codec with
  | .reference => (refMsgDec p.msgVersion a).filter responseFits
  | .device => (Config.deviceMsgDec a).filter responseFits

end Sys2Proof.Machine
end

