-- ==== Sys2Proof/Machine/Client.lean ====
section
/-! DEFINITION. The Protocol Client's exchange, shared by its five phase commands (spec/44_protocol_client.md R259 to
R267). An exchange first builds, writes and logs its request in the step that starts it (`startPhase`); then the
decoder reads the link, one receive event a step (R43, R65); when the decoder leaves the reading states, the exchange is
judged (`finishExchange`). -/

namespace Sys2Proof.Machine

/-- The sequence id of a phase's request (R223). -/
def Phase.seqId (p : Phase) : Word := BitVec.ofNat 32 p.number

/-- The client state a phase needs (R252). -/
def Phase.needs : Phase → ClState
  | .handshake => .connected
  | .prepare => .handshakeDone
  | .transfer => .prepared
  | .verify => .dataSent

/-- The client state a phase leaves when it succeeds (R251). -/
def Phase.leaves : Phase → ClState
  | .handshake => .handshakeDone
  | .prepare => .prepared
  | .transfer => .dataSent
  | .verify => .verified

/-- The body of a phase's request; `n` is the length that a prepare phase announces (R263 to R266). -/
def phaseBody (p : Phase) (n : Word) (s : State) : RequestBody :=
  match p with
  | .handshake => .handshake s.params.capabilities s.params.maxPacketSize
  | .prepare => .prepare n false
  | .transfer => .dataPacket 0 (stagedData s) (crc32Bootloader (stagedData s))
  | .verify => .prepare s.cl.stagedLen true

/-- The message bytes of a phase's request, `MsgEnc(Request{s, body})` (R262). -/
def phaseMessage (p : Phase) (n : Word) (s : State) : List Byte :=
  msgEnc s.params { sequenceId := p.seqId, body := phaseBody p n s }

/-- The log record of a request frame (R40, R262). -/
def requestRecord (p : Phase) (frameLen payloadLen written : Nat) : LogRecord where
  frameType := BitVec.ofNat 3 p.number
  totalLen := BitVec.ofNat 12 frameLen
  payloadLen := BitVec.ofNat 11 payloadLen
  bytesWritten := BitVec.ofNat 12 written
  success := written == frameLen

/-- A phase failed: `FAILED_PHASE` is set, `CL_STATE` stays, and the response carries the error, with the phase's number
as value inside `CL.RUN_SESSION` (R253, R263 to R267). -/
def phaseFailed (p : Phase) (session : Bool) (e : ErrKind) (s : State) : State :=
  respond e (if session then BitVec.ofNat 32 p.number else 0) { s with cl := { s.cl with failedPhase := some p } }

/-- The request is in TXBUF and `SEQ` is set (R262). -/
def loadRequest (p : Phase) (message : List Byte) (s : State) : State :=
  { writeBuffer .txbuf 0 message s with
    txLen := BitVec.ofNat 11 message.length
    cl := { s.cl with seq := p.seqId } }

/-- The decoder is reset and started again, and the exchange is in its `attempt`-th decode attempt (R262). -/
def awaitResponse (p : Phase) (session : Bool) (attempt : Nat) (s : State) : State :=
  { startDecoder (resetDecoder s) with progress := .exchange p session attempt }

/-- The write half of an exchange, from `TxWrite` to the first read (R262). A short write is `TransportError`; a reset
during the write ends the command without a response (R352). -/
def sendRequest (p : Phase) (session : Bool) (message : List Byte) (s : State) : State :=
  let frame := frameBytes message
  match nextWriteAnswer s.link with
  | .transportError =>
    phaseFailed p session .transportError (logAppend (requestRecord p frame.length message.length 0) (txWrite frame s))
  | .resetDuring _ => resetBlock (txWrite frame s)
  | .accepted n =>
    let s' := logAppend (requestRecord p frame.length message.length (min n frame.length)) (txFlush (txWrite frame s))
    if n < frame.length then phaseFailed p session .transportError s' else awaitResponse p session 1 s'

/-- The start of a phase's exchange (R262): a message over 1024 bytes is `FramePayloadTooLong` and changes nothing but
`FAILED_PHASE`. A transfer first tests `DBUF_OVF` (R265). -/
def startPhase (p : Phase) (session : Bool) (n : Word) (s : State) : State :=
  if p = .transfer ∧ dbufOvf s then phaseFailed p session .framePayloadTooLong s
  else if (phaseMessage p n s).length > maxPayload then phaseFailed p session .framePayloadTooLong s
  else sendRequest p session (phaseMessage p n s) (loadRequest p (phaseMessage p n s) s)

/-- A phase command outside a session: refused unless `CL_STATE` is the one it needs (R252). -/
def phaseCommand (p : Phase) (n : Word) (s : State) : State :=
  if s.cl.state = p.needs then startPhase p false n s else refuse s

/-- The judgement of a decoded response body: `None` or the error kind (`ExpectHandshake`, `ExpectAck`, R259). -/
def judge (p : Phase) (body : ResponseBody) : ErrKind :=
  match p, body with
  | .handshake, .handshakeResponse .. => .none
  | .handshake, .ack true _ => .protocolSequenceError
  | _, .ack false _ => .phaseFailure
  | _, .handshakeResponse .. => .protocolSequenceError
  | _, .ack true _ => .none

/-- What a decoded response leaves in the registers before it is judged: `LAST_RESULT`, and the fields of an `Ack`
(R262). -/
def recordResponse (r : Response) (s : State) : State :=
  match r.body with
  | .ack ok msg =>
    { writeBuffer .ackmsg 0 msg s with
      cl := { s.cl with lastResult := r.result, ackSuccess := ok, ackmsgLen := BitVec.ofNat 11 msg.length } }
  | .handshakeResponse .. => { s with cl := { s.cl with lastResult := r.result } }

/-- What a successful phase leaves in the registers (R263 to R266). -/
def recordSuccess (p : Phase) (body : ResponseBody) (s : State) : State :=
  match p, body with
  | .handshake, .handshakeResponse bv sc fp =>
    { writeBuffer .bootver 0 bv s with
      cl := { s.cl with
        state := p.leaves, failedPhase := none
        bootverLen := BitVec.ofNat 11 bv.length, supCaps := sc, flashPage := fp } }
  | .transfer, _ => { s with cl := { s.cl with state := p.leaves, failedPhase := none, stagedLen := s.dbufLen } }
  | _, _ => { s with cl := { s.cl with state := p.leaves, failedPhase := none } }

/-- What follows a successful phase: the response of its command (R263 to R266), or the next phase of the session, or the
end of the session (R267). The prepare phase of a session announces the length of the staged data. -/
def continueSession (p : Phase) (session : Bool) (s : State) : State :=
  match session, p with
  | false, .transfer => respond .none s.dbufLen s
  | false, _ => respond .none 0 s
  | true, .handshake => startPhase .prepare true s.dbufLen s
  | true, .prepare => startPhase .transfer true 0 s
  | true, .transfer => startPhase .verify true 0 s
  | true, .verify => respond .none s.dbufLen { s with cl := { s.cl with bytesXfer := s.dbufLen } }

/-- The read half of an exchange once its frame is complete: message decode, sequence id, judgement (R262, R259). -/
def judgeResponse (p : Phase) (session : Bool) (s : State) : State :=
  match msgDec s.params (rxPayload s) with
  | none => phaseFailed p session .messageDecodeError s
  | some r =>
    if r.sequenceId ≠ p.seqId then phaseFailed p session .protocolSequenceError (recordResponse r s)
    else if judge p r.body ≠ .none then phaseFailed p session (judge p r.body) (recordResponse r s)
    else continueSession p session (recordSuccess p r.body (recordResponse r s))

/-- The decoder errors after which an exchange makes no further attempt (R261). -/
def endsExchange (e : ErrKind) : Bool := e == .transportError || e == .interrupted

/-- The end of one decode attempt of an exchange: the response is judged, or the decoder's error is the phase's, or a
further attempt is made without sending the request again (R261, R262). -/
def finishExchange (p : Phase) (session : Bool) (attempt : Nat) (s : State) : State :=
  if s.dec.state = .complete then judgeResponse p session s
  else if attempt = s.params.rxAttempts ∨ endsExchange s.dec.err then phaseFailed p session s.dec.err s
  else awaitResponse p session (attempt + 1) s

end Sys2Proof.Machine
end

