-- ==== Sys2Proof/Machine/Receive.lean ====
section
/-! DEFINITION. The frame decoder's operations (spec/42_frame_decoder.md R181 to R192) and the two signals
(spec/60_exceptions.md R330, spec/70_reset_and_hazards.md R350). -/

namespace Sys2Proof.Machine

/-- `DEC.START` (R181): accepted only in `Idle`. It starts the decoder; the receive events that follow, one a step, are
its loop, and `afterEvent` answers it. -/
def execDecStart (s : State) : Host.Outcome State Fault Refusal :=
  .next (accept s fun s =>
    if s.dec.state ≠ .idle then refuse s else { startDecoder s with progress := .decode })

/-- `DEC.RESET` (R182). -/
def execDecReset (s : State) : Host.Outcome State Fault Refusal :=
  .next (accept s fun s => respond .none 0 (resetDecoder s))

/-- `RX.BYTE b` in `Syncing` (R184). -/
def rxSyncing (b : Byte) (s : State) : State :=
  if b = sofByte then { s with dec := { s.dec with state := .readingLength, idx := false } }
  else if s.dec.discard = 0xFFFFFFFF then s
  else { s with dec := { s.dec with discard := s.dec.discard + 1 } }

/-- `RX.BYTE b` in `ReadingLength` (R185). -/
def rxLength (b : Byte) (s : State) : State :=
  if s.dec.idx = false then { s with dec := { s.dec with lenb0 := b, idx := true } }
  else
    let len : BitVec 16 := (s.dec.lenb0.setWidth 16 <<< 8) ||| b.setWidth 16
    let d := { s.dec with lenb1 := b, idx := false, len := len }
    if len.toNat > maxPayload then rxFail .frameLengthInvalid { s with dec := d }
    else if len = 0 then { s with dec := { d with state := .readingCrc } }
    else { s with dec := { d with state := .readingPayload, cnt := 0, esc := false } }

/-- A payload byte stored in RXBUF; the field ends after `RX_LEN` unescaped bytes (R186). -/
def storePayload (v : Byte) (s : State) : State :=
  let s' := writeBuffer .rxbuf s.dec.cnt.toNat [v] s
  let cnt := s.dec.cnt + 1
  if cnt.toNat = s.dec.len.toNat then
    { s' with dec := { s.dec with cnt := cnt, esc := false, state := .readingCrc, idx := false } }
  else { s' with dec := { s.dec with cnt := cnt, esc := false } }

/-- `RX.BYTE b` in `ReadingPayload` (R186): the unescape, byte by byte. -/
def rxPayloadByte (b : Byte) (s : State) : State :=
  if s.dec.esc then
    if escapePartner b then storePayload (b ^^^ escXor) s else rxFail .frameEscapeViolation s
  else if b = escByte then { s with dec := { s.dec with esc := true } }
  else if needsEscape b then rxFail .frameEscapeViolation s
  else storePayload b s

/-- `RX.BYTE b` in `ReadingCrc` (R187). -/
def rxCrcByte (b : Byte) (s : State) : State :=
  if s.dec.idx = false then { s with dec := { s.dec with crc := b.setWidth 16 <<< 8, idx := true } }
  else { s with dec := { s.dec with crc := s.dec.crc ||| b.setWidth 16, idx := false, state := .readingEnd } }

/-- The CRC recomputed over the length bytes as received and the payload (R188). -/
def recomputedCrc (s : State) : BitVec 16 := crc16Ccitt (s.dec.lenb0 :: s.dec.lenb1 :: rxPayload s)

/-- `RX.BYTE b` in `ReadingEnd` (R188): the end byte is checked first, the CRC second. -/
def rxEnd (b : Byte) (s : State) : State :=
  if b ≠ eofByte then rxFail .frameEndMismatch s
  else if recomputedCrc s ≠ s.dec.crc then rxFail .frameCrcMismatch s
  else { s with dec := { s.dec with state := .complete } }

/-- What a byte does to the decoder in a reading state (R183); in the other states it is no event (R197, R325). -/
def receiveByte (b : Byte) (s : State) : State :=
  match s.dec.state with
  | .syncing => rxSyncing b s
  | .readingLength => rxLength b s
  | .readingPayload => rxPayloadByte b s
  | .readingCrc => rxCrcByte b s
  | .readingEnd => rxEnd b s
  | .idle | .complete | .failed => s

/-- What a timeout does to the decoder in a reading state (R190). -/
def receiveTimeout (s : State) : State :=
  if s.dec.state = .syncing then rxFail .frameSyncTimeout s else rxFail .frameReadTimeout s

/-- The response of `DEC.START` once the decoder has left the reading states (R181). -/
def respondDecode (s : State) : State :=
  if s.dec.state = .complete then respond .none (s.dec.len.setWidth 32) s
  else if s.dec.err = .frameSyncTimeout then respond .frameSyncTimeout s.dec.discard s
  else respond s.dec.err 0 s

/-- The loop of R181 and R262 after one event: it goes on while the decoder is in a reading state; otherwise the command
in progress is answered or goes on. -/
def afterEvent (s : State) : State :=
  if s.dec.state.reading then s
  else match s.progress with
    | .idle => s
    | .decode => respondDecode s
    | .exchange p session attempt => finishExchange p session attempt s

/-- A receive event or an abort, which occurs only in a reading state (R65, R330; log entry 12). -/
def onEvent (f : State → State) (s : State) : State := if s.dec.state.reading then afterEvent (f s) else s

/-- `RX.BYTE b` (R183). -/
def execRxByte (b : Byte) (s : State) : Host.Outcome State Fault Refusal := .next (onEvent (receiveByte b) s)

/-- `RX.TIMEOUT` (R190). -/
def execRxTimeout (s : State) : Host.Outcome State Fault Refusal := .next (onEvent receiveTimeout s)

/-- `RX.ERROR` (R191). -/
def execRxError (s : State) : Host.Outcome State Fault Refusal := .next (onEvent (rxFail .transportError) s)

/-- `SIG.RESET` (R350): at any time, busy or not. -/
def execSigReset (s : State) : Host.Outcome State Fault Refusal := .next (resetBlock s)

/-- `SIG.ABORT` (R330): it fails the decoder in a reading state and has no effect at any other time. -/
def execSigAbort (s : State) : Host.Outcome State Fault Refusal := .next (onEvent (rxFail .interrupted) s)

end Sys2Proof.Machine
end

