-- ==== Sys2Proof/Machine/Session.lean ====
section
/-! DEFINITION. The operations of the Protocol Client (spec/44_protocol_client.md R252 to R258, R263 to R267). -/

namespace Sys2Proof.Machine

/-- `DBUF.CLEAR` (R254). -/
def execDbufClear (s : State) : Host.Outcome State Fault Refusal :=
  .next (accept s fun s => respond .none 0 { s with dbufLen := 0 })

/-- The push of R255: stored below `DATA_MAX` bytes, otherwise only remembered as the length `DATA_MAX + 1`. -/
def pushDbuf (b : Byte) (s : State) : State :=
  if s.dbufLen.toNat < s.params.dataMax then { writeBuffer .dbuf s.dbufLen.toNat [b] s with dbufLen := s.dbufLen + 1 }
  else { s with dbufLen := BitVec.ofNat 32 (s.params.dataMax + 1) }

/-- `DBUF.PUSH b` (R255): the response carries the new `DBUF_LEN`. -/
def execDbufPush (b : Byte) (s : State) : Host.Outcome State Fault Refusal :=
  .next (accept s fun s => respond .none (pushDbuf b s).dbufLen (pushDbuf b s))

/-- The client registers after a successful `CL.OPEN` (R257): as after reset, but `Connected`. -/
def openedClient : Client := { Client.reset with state := .connected }

/-- `CL.OPEN` (R257); a reset during the call ends it without a response (R350). -/
def execClOpen (s : State) : Host.Outcome State Fault Refusal :=
  .next (accept s fun s =>
    if s.cl.state ≠ .disconnected then refuse s
    else match nextOpenAnswer s.link with
      | .opened => respond .none 0 { linkOpen s with cl := openedClient }
      | .transportError => respond .transportError 0 (linkOpen s)
      | .resetDuring => resetBlock (linkOpen s))

/-- `CL.CLOSE` (R258): no register changes but `CL_STATE`; in `Disconnected` the link is not called. A reset during the
call ends it without a response (R350). -/
def execClClose (s : State) : Host.Outcome State Fault Refusal :=
  .next (accept s fun s =>
    if s.cl.state = .disconnected then respond .none 0 s
    else match nextCloseAnswer s.link with
      | .closed => respond .none 0 (linkClose { s with cl := { s.cl with state := .disconnected } })
      | .resetDuring => resetBlock (linkClose s))

/-- `CL.HANDSHAKE` (R263). -/
def execClHandshake (s : State) : Host.Outcome State Fault Refusal :=
  .next (accept s (phaseCommand .handshake 0))

/-- `CL.PREPARE n` (R264). -/
def execClPrepare (n : Word) (s : State) : Host.Outcome State Fault Refusal :=
  .next (accept s (phaseCommand .prepare n))

/-- `CL.TRANSFER` (R265). -/
def execClTransfer (s : State) : Host.Outcome State Fault Refusal :=
  .next (accept s (phaseCommand .transfer 0))

/-- `CL.VERIFY` (R266). -/
def execClVerify (s : State) : Host.Outcome State Fault Refusal :=
  .next (accept s (phaseCommand .verify 0))

/-- `CL.RUN_SESSION` (R267): the test of `DBUF_OVF` comes before the first phase and reports phase 3. -/
def execClRunSession (s : State) : Host.Outcome State Fault Refusal :=
  .next (accept s fun s =>
    if s.cl.state ≠ .connected then refuse s
    else if dbufOvf s then phaseFailed .transfer true .framePayloadTooLong s
    else startPhase .handshake true 0 s)

end Sys2Proof.Machine
end

