-- ==== Sys2Proof/Syntax.lean ====
section
/-! DEFINITION. The operations of the block (spec/30_encoding.md R100), one constructor for each row of
spec/opcode_table.json, in the table's order, with the operands of R103 and R104. -/

namespace Sys2Proof

/-- An operation: a host command, a receive event from the link, or a signal on a wire (R3, R100). -/
inductive Instr where
  /-- `NOP` (R303). -/
  | nop
  /-- `RD r`: read register number `r` (R300). -/
  | rd (r : BitVec 8)
  /-- `BUF.READ s, i`: read index `i` of buffer space `s` (R301). -/
  | bufRead (s : BitVec 8) (i : BitVec 24)
  /-- `LOG.READ i, f`: read field `f` of log record `i` (R302). -/
  | logRead (i f : BitVec 8)
  /-- `CRC16.INIT` (R131). -/
  | crc16Init
  /-- `CRC16.UPDATE b` (R132). -/
  | crc16Update (b : Byte)
  /-- `CRC16.READ` (R133). -/
  | crc16Read
  /-- `CRC32.INIT` (R136). -/
  | crc32Init
  /-- `CRC32.UPDATE b` (R137). -/
  | crc32Update (b : Byte)
  /-- `CRC32.READ` (R138). -/
  | crc32Read
  /-- `TXBUF.CLEAR` (R164). -/
  | txbufClear
  /-- `TXBUF.PUSH b` (R165). -/
  | txbufPush (b : Byte)
  /-- `ENC.FRAME` (R166). -/
  | encFrame
  /-- `DEC.START` (R181). -/
  | decStart
  /-- `DEC.RESET` (R182). -/
  | decReset
  /-- `CL.OPEN` (R257). -/
  | clOpen
  /-- `CL.CLOSE` (R258). -/
  | clClose
  /-- `CL.HANDSHAKE` (R263). -/
  | clHandshake
  /-- `CL.PREPARE n` (R264). -/
  | clPrepare (n : Word)
  /-- `CL.TRANSFER` (R265). -/
  | clTransfer
  /-- `CL.VERIFY` (R266). -/
  | clVerify
  /-- `CL.RUN_SESSION` (R267). -/
  | clRunSession
  /-- `DBUF.CLEAR` (R254). -/
  | dbufClear
  /-- `DBUF.PUSH b` (R255). -/
  | dbufPush (b : Byte)
  /-- `RX.BYTE b`: the link delivers a byte (R183). -/
  | rxByte (b : Byte)
  /-- `RX.TIMEOUT`: the link's bounded wait for a byte ran out (R190). -/
  | rxTimeout
  /-- `RX.ERROR`: the link failed (R191). -/
  | rxError
  /-- `SIG.RESET`: the reset wire is 1 (R350). -/
  | sigReset
  /-- `SIG.ABORT`: the abort wire is 1 at a sampling point (R330). -/
  | sigAbort
  deriving DecidableEq, Repr

end Sys2Proof
end

