-- ==== Sys2Proof/Machine/Dispatch.lean ====
section
/-! DEFINITION. The meaning of every operation, one arm for each constructor of Instr. -/

namespace Sys2Proof.Machine

def exec (i : Instr) (s : State) : Host.Outcome State Fault Refusal :=
  match i with
  | .nop => Sys2Proof.Machine.execNop s
  | .rd r => Sys2Proof.Machine.execRd r s
  | .bufRead sp k => Sys2Proof.Machine.execBufRead sp k s
  | .logRead k f => Sys2Proof.Machine.execLogRead k f s
  | .crc16Init => Sys2Proof.Machine.execCrc16Init s
  | .crc16Update b => Sys2Proof.Machine.execCrc16Update b s
  | .crc16Read => Sys2Proof.Machine.execCrc16Read s
  | .crc32Init => Sys2Proof.Machine.execCrc32Init s
  | .crc32Update b => Sys2Proof.Machine.execCrc32Update b s
  | .crc32Read => Sys2Proof.Machine.execCrc32Read s
  | .txbufClear => Sys2Proof.Machine.execTxbufClear s
  | .txbufPush b => Sys2Proof.Machine.execTxbufPush b s
  | .encFrame => Sys2Proof.Machine.execEncFrame s
  | .decStart => Sys2Proof.Machine.execDecStart s
  | .decReset => Sys2Proof.Machine.execDecReset s
  | .clOpen => Sys2Proof.Machine.execClOpen s
  | .clClose => Sys2Proof.Machine.execClClose s
  | .clHandshake => Sys2Proof.Machine.execClHandshake s
  | .clPrepare n => Sys2Proof.Machine.execClPrepare n s
  | .clTransfer => Sys2Proof.Machine.execClTransfer s
  | .clVerify => Sys2Proof.Machine.execClVerify s
  | .clRunSession => Sys2Proof.Machine.execClRunSession s
  | .dbufClear => Sys2Proof.Machine.execDbufClear s
  | .dbufPush b => Sys2Proof.Machine.execDbufPush b s
  | .rxByte b => Sys2Proof.Machine.execRxByte b s
  | .rxTimeout => Sys2Proof.Machine.execRxTimeout s
  | .rxError => Sys2Proof.Machine.execRxError s
  | .sigReset => Sys2Proof.Machine.execSigReset s
  | .sigAbort => Sys2Proof.Machine.execSigAbort s

end Sys2Proof.Machine
end

