-- ==== Sys2Proof/WellFormed.lean ====
section
/-! DEFINITION. Which operations use no reserved number (spec/20_memory.md R71). The widths of the operands are in
their types; an operation that is not well formed still has a command word and an effect: it is refused
(spec/60_exceptions.md R318). -/

namespace Sys2Proof

/-- `RD` names a register of R42 (0x00 to 0x17), `BUF.READ` a buffer of R60 (0 to 4), `LOG.READ` a field of R302
(0 to 4). No other operation has an operand with a reserved value. -/
def Instr.wellFormed : Instr → Bool
  | .rd r => r.toNat ≤ 0x17
  | .bufRead s _ => s.toNat ≤ 4
  | .logRead _ f => f.toNat ≤ 4
  | .nop | .crc16Init | .crc16Update _ | .crc16Read | .crc32Init | .crc32Update _ | .crc32Read
  | .txbufClear | .txbufPush _ | .encFrame | .decStart | .decReset | .clOpen | .clClose | .clHandshake
  | .clPrepare _ | .clTransfer | .clVerify | .clRunSession | .dbufClear | .dbufPush _
  | .rxByte _ | .rxTimeout | .rxError | .sigReset | .sigAbort => true

end Sys2Proof
end

