-- ==== Sys2Proof/Decode.lean ====
section
/-! DEFINITION. The port encodings of spec/30_encoding.md: the decoder of command words (R101, R103, R106), of
receive event symbols (R104) and of wire samples (R105), total, rejecting by name; then the encoder, from the same
tables. -/

namespace Sys2Proof

/-- What one of the block's three input ports delivers: a command word, a receive event symbol, or a sample of the
two wires (R101, R104, R105). -/
inductive Symbol where
  | cmd (w : CmdWord)
  | rx (e : RxSymbol)
  | wires (w : WireSample)
  deriving DecidableEq, Repr

/-- Why a symbol is no operation. -/
inductive DecodeError where
  /-- The opcode is not in R100 (R106): the command is refused. -/
  | reservedOpcode (op : BitVec 8)
  /-- A symbol from 0x102 to 0x1FF (R104), which no link produces. -/
  | reservedSymbol (e : RxSymbol)
  /-- Both wires are 0: no signal (R105). -/
  | noSignal
  deriving DecidableEq, Repr

/-- The opcode field of a command word, bits 39:32 (R101). -/
def opField (w : CmdWord) : BitVec 8 := w.extractLsb' 32 8

/-- The operand field of a command word, bits 31:0 (R101). -/
def argField (w : CmdWord) : Word := w.extractLsb' 0 32

/-- `arg[7:0]`: a register number, a byte or a record index (R103). -/
def argByte (arg : Word) : BitVec 8 := arg.extractLsb' 0 8

/-- `arg[15:8]`: the field selector of `LOG.READ` (R103). -/
def argSelector (arg : Word) : BitVec 8 := arg.extractLsb' 8 8

/-- `arg[31:24]`: the space id of `BUF.READ` (R103). -/
def argSpace (arg : Word) : BitVec 8 := arg.extractLsb' 24 8

/-- `arg[23:0]`: the index of `BUF.READ` (R103). -/
def argIndex (arg : Word) : BitVec 24 := arg.extractLsb' 0 24

/-- The command of an opcode and an operand field: the `cmd` rows of R100. -/
def decodeOp (op : BitVec 8) (arg : Word) : Except DecodeError Instr :=
  match op.toNat with
  | 0x00 => .ok .nop
  | 0x01 => .ok (.rd (argByte arg))
  | 0x02 => .ok (.bufRead (argSpace arg) (argIndex arg))
  | 0x03 => .ok (.logRead (argByte arg) (argSelector arg))
  | 0x10 => .ok .crc16Init
  | 0x11 => .ok (.crc16Update (argByte arg))
  | 0x12 => .ok .crc16Read
  | 0x18 => .ok .crc32Init
  | 0x19 => .ok (.crc32Update (argByte arg))
  | 0x1A => .ok .crc32Read
  | 0x20 => .ok .txbufClear
  | 0x21 => .ok (.txbufPush (argByte arg))
  | 0x22 => .ok .encFrame
  | 0x30 => .ok .decStart
  | 0x31 => .ok .decReset
  | 0x40 => .ok .clOpen
  | 0x41 => .ok .clClose
  | 0x42 => .ok .clHandshake
  | 0x43 => .ok (.clPrepare arg)
  | 0x44 => .ok .clTransfer
  | 0x45 => .ok .clVerify
  | 0x46 => .ok .clRunSession
  | 0x48 => .ok .dbufClear
  | 0x49 => .ok (.dbufPush (argByte arg))
  | _ => .error (.reservedOpcode op)

/-- A command word is its opcode field and its operand field; `op` alone selects the operation (R101, R106). -/
def decodeCmd (w : CmdWord) : Except DecodeError Instr :=
  decodeOp (opField w) (argField w)

/-- A receive event symbol (R104): bit 8 is 0 for a byte; 0x100 and 0x101 are the two events without one. -/
def decodeRx (e : RxSymbol) : Except DecodeError Instr :=
  if e.toNat < 0x100 then .ok (.rxByte (e.extractLsb' 0 8))
  else if e.toNat = 0x100 then .ok .rxTimeout
  else if e.toNat = 0x101 then .ok .rxError
  else .error (.reservedSymbol e)

/-- A sample of the wires (R105). Reset goes before everything else (R350), so it hides an abort. -/
def decodeWires (w : WireSample) : Except DecodeError Instr :=
  if w.getLsbD 0 then .ok .sigReset
  else if w.getLsbD 1 then .ok .sigAbort
  else .error .noSignal

/-- The operation a symbol stands for. -/
def decode : Symbol → Except DecodeError Instr
  | .cmd w => decodeCmd w
  | .rx e => decodeRx e
  | .wires w => decodeWires w

/-- A command word from its two fields (R101). -/
def cmdWord (op : BitVec 8) (arg : Word) : CmdWord := op ++ arg

/-- An operand field that holds one byte in bits 7:0, the ignored bits 0 (R103). -/
def byteArg (b : BitVec 8) : Word := b.setWidth 32

/-- The symbol of an operation, every ignored bit 0 (R100, R103, R104). -/
def encode : Instr → Symbol
  | .nop => .cmd (cmdWord 0x00 0)
  | .rd r => .cmd (cmdWord 0x01 (byteArg r))
  | .bufRead s i => .cmd (cmdWord 0x02 (s ++ i))
  | .logRead i f => .cmd (cmdWord 0x03 ((f ++ i).setWidth 32))
  | .crc16Init => .cmd (cmdWord 0x10 0)
  | .crc16Update b => .cmd (cmdWord 0x11 (byteArg b))
  | .crc16Read => .cmd (cmdWord 0x12 0)
  | .crc32Init => .cmd (cmdWord 0x18 0)
  | .crc32Update b => .cmd (cmdWord 0x19 (byteArg b))
  | .crc32Read => .cmd (cmdWord 0x1A 0)
  | .txbufClear => .cmd (cmdWord 0x20 0)
  | .txbufPush b => .cmd (cmdWord 0x21 (byteArg b))
  | .encFrame => .cmd (cmdWord 0x22 0)
  | .decStart => .cmd (cmdWord 0x30 0)
  | .decReset => .cmd (cmdWord 0x31 0)
  | .clOpen => .cmd (cmdWord 0x40 0)
  | .clClose => .cmd (cmdWord 0x41 0)
  | .clHandshake => .cmd (cmdWord 0x42 0)
  | .clPrepare n => .cmd (cmdWord 0x43 n)
  | .clTransfer => .cmd (cmdWord 0x44 0)
  | .clVerify => .cmd (cmdWord 0x45 0)
  | .clRunSession => .cmd (cmdWord 0x46 0)
  | .dbufClear => .cmd (cmdWord 0x48 0)
  | .dbufPush b => .cmd (cmdWord 0x49 (byteArg b))
  | .rxByte b => .rx (b.setWidth 9)
  | .rxTimeout => .rx 0x100
  | .rxError => .rx 0x101
  | .sigReset => .wires 1
  | .sigAbort => .wires 2

/-- The symbol whose bits are `w`, on the port that the width of its table row names: up to 8 bits the wires, up to 16
the receive port, above that the command port. None where a bit above the symbol's own width is 1. -/
def tableSymbol (nbits w : Nat) : Option Symbol :=
  if nbits ≤ 8 then (if w < 2 ^ 2 then some (.wires (BitVec.ofNat 2 w)) else none)
  else if nbits ≤ 16 then (if w < 2 ^ 9 then some (.rx (BitVec.ofNat 9 w)) else none)
  else if w < 2 ^ 40 then some (.cmd (BitVec.ofNat 40 w)) else none

/-- The instruction the decoder reads from the bits of a row of spec/opcode_table.json. The two wires' rows have the
same bits, 1: the first wire's bit 0 is `SIG.RESET`, and `SIG.ABORT` is bit 1 of a sample (log entry 3). -/
def decodeTableWord (nbits w : Nat) : Option Instr :=
  match tableSymbol nbits w with
  | some y => (decode y).toOption
  | none => none

end Sys2Proof
end

