-- ==== Sys2Proof/Machine/Fetch.lean ====
section
/-! DEFINITION. Which operation the block performs next, from what its ports deliver (spec/00_scope.md R3,
spec/10_state.md R24, spec/20_memory.md R65, spec/60_exceptions.md R330, spec/70_reset_and_hazards.md R350), and how a
symbol is placed where the next step takes it. The block fetches no instructions (R21). -/

namespace Sys2Proof.Machine

/-- What the block does next. -/
inductive NextInput where
  /-- It performs an operation, in the state with the operation's symbol taken from its port. -/
  | run (i : Instr) (s : State)
  /-- It takes a command word with a reserved opcode (R106). -/
  | reserved (s : State)
  /-- Nothing has arrived: it waits. -/
  | wait (s : State)
  /-- The link hands over a symbol that no link produces (R104). -/
  | badSymbol

/-- The sample of the wires at this step. -/
def wireSample (s : State) : WireSample := s.port.wires.headD 0

/-- The state with this step's sample of the wires taken. -/
def takeWires (s : State) : State := { s with port := { s.port with wires := s.port.wires.tail } }

/-- The read of the link, `RxNext()` (R65): the front event of the receive stream, or a wait while the link has none. -/
def nextEvent (s : State) : NextInput :=
  match s.link.rx with
  | [] => .wait s
  | e :: rest =>
    match decodeRx e with
    | .ok i => .run i { s with link := { s.link with rx := rest } }
    | .error _ => .badSymbol

/-- The command port: the front command word, or a wait while the host has presented none. -/
def nextCommand (s : State) : NextInput :=
  match s.port.cmd with
  | [] => .wait s
  | w :: rest =>
    match decodeCmd w with
    | .ok i => .run i { s with port := { s.port with cmd := rest } }
    | .error _ => .reserved { s with port := { s.port with cmd := rest } }

/-- The next operation. Reset goes before everything (R350); in a reading state the block samples the abort wire and then
reads the link (R330); while it is busy it accepts no command (R24); otherwise it takes a command. -/
def nextInput (s : State) : NextInput :=
  match decodeWires (wireSample s), s.dec.state.reading, s.busy with
  | .ok .sigReset, _, _ => .run .sigReset (takeWires s)
  | .ok .sigAbort, true, _ => .run .sigAbort (takeWires s)
  | _, true, _ => nextEvent (takeWires s)
  | _, false, true => .wait (takeWires s)
  | _, false, false => nextCommand (takeWires s)

/-- The decoder in a reading state with a command in progress, so that the next step reads the link: as it is where that
holds, otherwise just after `DEC.START`. -/
def readyToRead (s : State) : State :=
  if s.dec.state.reading then s else { startDecoder s with progress := .decode }

/-- The block free to take a command: as it is where `BUSY` is 0 and the decoder does not read, otherwise with the
command in progress dropped and the decoder in `Idle`. -/
def readyForCommand (s : State) : State :=
  { s with
    progress := .idle
    dec := if s.dec.state.reading then Decoder.reset else s.dec }

/-- A symbol put where the next step takes it, with both wires 0 unless it is theirs (log entry 17). A reset is taken in
any state, an abort only where the block is about to read. -/
def placeSymbol (y : Symbol) (s : State) : State :=
  match y with
  | .cmd w =>
    let s' := readyForCommand s
    { s' with port := { s'.port with cmd := w :: s'.port.cmd, wires := 0 :: s'.port.wires } }
  | .rx e =>
    let s' := readyToRead s
    { s' with
      link := { s'.link with rx := e :: s'.link.rx }
      port := { s'.port with wires := 0 :: s'.port.wires } }
  | .wires w =>
    let s' := if w.getLsbD 0 then s else readyToRead s
    { s' with port := { s'.port with wires := w :: s'.port.wires } }

end Sys2Proof.Machine
end

