-- ==== Sys2Proof/Machine/Step.lean ====
section
/-! DEFINITION. One step of the block: one host command, one receive event or one signal (spec/92_eei_decisions.md D1). -/

namespace Sys2Proof.Machine

/-- One step. A reserved opcode is refused by the block with a response (R106, R318); where nothing has arrived only the
sample of the wires is used up. -/
def step (s : State) : Host.Outcome State Fault Refusal :=
  match nextInput s with
  | .run i s' => exec i s'
  | .reserved s' => .next (refuse s')
  | .wait s' => .next s'
  | .badSymbol => .fault .reservedReceiveSymbol

/-- The state with the symbol of a row of spec/opcode_table.json put where `step` takes its next input. -/
def State.withFetchWord (s : State) (nbits w : Nat) : State :=
  match tableSymbol nbits w with
  | some y => placeSymbol y s
  | none => s

end Sys2Proof.Machine
end

