-- ==== Sys2Proof/Safety.lean ====
section
/-! DEFINITION. The terms that claims about runs use: the invariant that the registers hold legal values (spec/10_state.md
R42), that every byte a rule can read has been written (R44), that the decoder's registers agree with its state
(spec/42_frame_decoder.md R189) and that `BUSY` and the client agree with the command in progress (R24, R43); the
allowed transitions of the two state machines (R197, R251); what a phase has done when its request is out, when its write
failed, or when a reset came during it (R262, R352); the laws of a message codec (R226); and streams of bytes. -/

namespace Sys2Proof.Machine

/-- Every byte of a buffer below index `n` has been written. -/
def Written (s : State) (sp : Space) (n : Nat) : Prop :=
  ∀ i, i < n → (s.mem.readAt (Memory.addr sp i)).isSome

/-- The value of the two length bytes as received (R30). -/
def receivedLength (d : Decoder) : BitVec 16 := (d.lenb0.setWidth 16 <<< 8) ||| d.lenb1.setWidth 16

/-- The error kinds that can put the decoder in `Failed` (R190 to R193, R330). -/
def decoderError : ErrKind → Bool
  | .transportError | .frameSyncTimeout | .frameReadTimeout | .frameCrcMismatch | .frameEndMismatch
  | .frameLengthInvalid | .frameEscapeViolation | .interrupted => true
  | .none | .messageDecodeError | .protocolSequenceError | .phaseFailure | .scenarioConfigError
  | .framePayloadTooLong | .cmdRefused => false

/-- The decoder's registers agree with its state: `RX_ERR` is 0 but in `Failed` (R29), `RX_LEN` is the received length
once both bytes came and 0 before (R30), `RX_CNT` counts up to it (R31), `RX_ESC` is set only in the payload, and in
`Complete` the received CRC matches (R189). -/
def DecoderOk (s : State) : Prop :=
  match s.dec.state with
  | .idle => s.dec = Decoder.reset
  | .syncing => s.dec = { Decoder.reset with state := .syncing, discard := s.dec.discard }
  | .readingLength =>
    s.dec = { Decoder.reset with
      state := .readingLength, discard := s.dec.discard, lenb0 := s.dec.lenb0, idx := s.dec.idx }
  | .readingPayload =>
    s.dec.err = .none ∧ s.dec.len = receivedLength s.dec ∧ s.dec.len.toNat ≤ 1024 ∧ s.dec.cnt.toNat < s.dec.len.toNat ∧
      s.dec.idx = false ∧ s.dec.crc = 0 ∧ Written s .rxbuf s.dec.cnt.toNat
  | .readingCrc =>
    s.dec.err = .none ∧ s.dec.len = receivedLength s.dec ∧ s.dec.len.toNat ≤ 1024 ∧ s.dec.cnt.toNat = s.dec.len.toNat ∧
      s.dec.esc = false ∧ Written s .rxbuf s.dec.cnt.toNat
  | .readingEnd =>
    s.dec.err = .none ∧ s.dec.len = receivedLength s.dec ∧ s.dec.len.toNat ≤ 1024 ∧ s.dec.cnt.toNat = s.dec.len.toNat ∧
      s.dec.esc = false ∧ s.dec.idx = false ∧ Written s .rxbuf s.dec.cnt.toNat
  | .complete =>
    s.dec.err = .none ∧ s.dec.len = receivedLength s.dec ∧ s.dec.len.toNat ≤ 1024 ∧ s.dec.cnt.toNat = s.dec.len.toNat ∧
      s.dec.esc = false ∧ s.dec.idx = false ∧ Written s .rxbuf s.dec.cnt.toNat ∧ recomputedCrc s = s.dec.crc
  | .failed => decoderError s.dec.err = true ∧ s.dec.cnt.toNat ≤ 1024

/-- The registers hold legal values (R27, R36 to R41, R42), the memory is in canonical form, and every byte below a
buffer's length register has been written (R44). -/
structure RegistersOk (s : State) : Prop where
  params : s.params.wf
  memory : s.mem.wf = true
  txLen : s.txLen.toNat ≤ 1025
  dbufLen : s.dbufLen.toNat ≤ s.params.dataMax + 1
  seq : s.cl.seq.toNat ≤ 4
  bootverLen : s.cl.bootverLen.toNat ≤ 1024
  ackmsgLen : s.cl.ackmsgLen.toNat ≤ 1024
  stagedLen : s.cl.stagedLen.toNat ≤ s.params.dataMax
  bytesXfer : s.cl.bytesXfer.toNat ≤ s.params.dataMax
  log : s.cl.log.length ≤ s.params.logMax
  txbuf : Written s .txbuf (min s.txLen.toNat 1024)
  dbuf : Written s .dbuf (min s.dbufLen.toNat s.params.dataMax)
  bootver : Written s .bootver s.cl.bootverLen.toNat
  ackmsg : Written s .ackmsg s.cl.ackmsgLen.toNat
  decoder : DecoderOk s

/-- The command in progress agrees with the decoder and the client: a command is in progress exactly while the decoder
is in a reading state (R24, R181, R262), and an exchange runs in the client state its phase needs, under its sequence id, in
one of its attempts (R43, R252, R262). -/
def ProgressOk (s : State) : Prop :=
  match s.progress with
  | .idle => s.dec.state.reading = false
  | .decode => s.dec.state.reading = true
  | .exchange p session attempt =>
    s.dec.state.reading = true ∧ s.cl.state = p.needs ∧ s.cl.seq = p.seqId ∧ 1 ≤ attempt ∧
      attempt ≤ s.params.rxAttempts ∧ (p = .transfer ∨ session = true → s.dbufLen.toNat ≤ s.params.dataMax)

/-- The invariant of the block. -/
def Inv (s : State) : Prop := RegistersOk s ∧ ProgressOk s

/-- The transitions of `CL_STATE` (R251). -/
def clientMoves (a b : ClState) : Bool :=
  b == .disconnected ||
    match a, b with
    | .disconnected, .connected | .connected, .handshakeDone | .handshakeDone, .prepared
    | .prepared, .dataSent | .dataSent, .verified => true
    | _, _ => false

/-- The transitions of `RX_STATE` on `RX.BYTE` (R197). -/
def byteMoves (a b : RxState) : Bool :=
  match a, b with
  | .syncing, .syncing | .syncing, .readingLength
  | .readingLength, .readingLength | .readingLength, .readingPayload | .readingLength, .readingCrc
  | .readingLength, .failed
  | .readingPayload, .readingPayload | .readingPayload, .readingCrc | .readingPayload, .failed
  | .readingCrc, .readingCrc | .readingCrc, .readingEnd
  | .readingEnd, .complete | .readingEnd, .failed => true
  | _, _ => false

/-- The receive event symbols of a list of bytes (R104). -/
def byteSymbols (bs : List Byte) : List RxSymbol := bs.map fun b => b.setWidth 9

/-- A response word as the host reads it (R102). -/
def responseWord (status : ErrKind) (value : Word) : RespWord := status.code ++ value

/-- The link's answers to the next calls are not that reset comes during them (R350, R352). -/
def noResetDuringCall (s : State) : Prop :=
  (∀ n, nextWriteAnswer s.link ≠ .resetDuring n) ∧ nextOpenAnswer s.link ≠ .resetDuring ∧
    nextCloseAnswer s.link ≠ .resetDuring

/-- The host commands (R100). -/
def isCommand : Instr → Bool
  | .rxByte _ | .rxTimeout | .rxError | .sigReset | .sigAbort => false
  | .nop | .rd _ | .bufRead .. | .logRead .. | .crc16Init | .crc16Update _ | .crc16Read | .crc32Init | .crc32Update _
  | .crc32Read | .txbufClear | .txbufPush _ | .encFrame | .decStart | .decReset | .clOpen | .clClose | .clHandshake
  | .clPrepare _ | .clTransfer | .clVerify | .clRunSession | .dbufClear | .dbufPush _ => true

/-- The operations of the Checksum Engine (R130). -/
def isChecksum : Instr → Bool
  | .crc16Init | .crc16Update _ | .crc16Read | .crc32Init | .crc32Update _ | .crc32Read => true
  | .nop | .rd _ | .bufRead .. | .logRead .. | .txbufClear | .txbufPush _ | .encFrame | .decStart | .decReset | .clOpen
  | .clClose | .clHandshake | .clPrepare _ | .clTransfer | .clVerify | .clRunSession | .dbufClear | .dbufPush _
  | .rxByte _ | .rxTimeout | .rxError | .sigReset | .sigAbort => false

/-- The bits of its command word that an operation uses: the opcode and the operand's bits (R101, R103). -/
def usedBits : Instr → CmdWord
  | .bufRead .. | .clPrepare _ => 0xFFFFFFFFFF
  | .logRead .. => 0xFF0000FFFF
  | .rd _ | .crc16Update _ | .crc32Update _ | .txbufPush _ | .dbufPush _ => 0xFF000000FF
  | .nop | .crc16Init | .crc16Read | .crc32Init | .crc32Read | .txbufClear | .encFrame | .decStart | .decReset | .clOpen
  | .clClose | .clHandshake | .clTransfer | .clVerify | .clRunSession | .dbufClear => 0xFF00000000
  | .rxByte _ | .rxTimeout | .rxError | .sigReset | .sigAbort => 0

/-- The opcodes of R106, the reserved ones. -/
def reservedOpcode (op : Nat) : Prop :=
  (0x04 ≤ op ∧ op ≤ 0x0F) ∨ (0x13 ≤ op ∧ op ≤ 0x17) ∨ (0x1B ≤ op ∧ op ≤ 0x1F) ∨ (0x23 ≤ op ∧ op ≤ 0x2F) ∨
    (0x32 ≤ op ∧ op ≤ 0x3F) ∨ op = 0x47 ∨ (0x4A ≤ op ∧ op ≤ 0xFF)

/-- Which commands are refused in a state: clauses (b) to (f) of R318, with R252 and R301. -/
def refusedIn (s : State) : Instr → Prop
  | .rd r => 0x18 ≤ r.toNat
  | .bufRead sp i =>
    5 ≤ sp.toNat ∨
      (sp = 0 ∧ (s.dec.state ≠ .complete ∨ s.dec.len.toNat ≤ i.toNat)) ∨
      (sp = 1 ∧ min s.txLen.toNat 1024 ≤ i.toNat) ∨
      (sp = 2 ∧ min s.dbufLen.toNat s.params.dataMax ≤ i.toNat) ∨
      (sp = 3 ∧ s.cl.bootverLen.toNat ≤ i.toNat) ∨
      (sp = 4 ∧ s.cl.ackmsgLen.toNat ≤ i.toNat)
  | .logRead i f => s.cl.log.length ≤ i.toNat ∨ 5 ≤ f.toNat
  | .decStart => s.dec.state ≠ .idle
  | .clOpen => s.cl.state ≠ .disconnected
  | .clHandshake | .clRunSession => s.cl.state ≠ .connected
  | .clPrepare _ => s.cl.state ≠ .handshakeDone
  | .clTransfer => s.cl.state ≠ .prepared
  | .clVerify => s.cl.state ≠ .dataSent
  | .nop | .crc16Init | .crc16Update _ | .crc16Read | .crc32Init | .crc32Update _ | .crc32Read | .txbufClear
  | .txbufPush _ | .encFrame | .decReset | .clClose | .dbufClear | .dbufPush _
  | .rxByte _ | .rxTimeout | .rxError | .sigReset | .sigAbort => False

/-- The first phase of a phase command that is neither refused nor stopped by `DBUF_OVF`, whether it is part of a session,
and its request (R263 to R267). -/
def phaseRequest (s : State) : Instr → Option (Phase × Bool × Request)
  | .clHandshake =>
    if s.cl.state = .connected then
      some (.handshake, false, { sequenceId := 1, body := .handshake s.params.capabilities s.params.maxPacketSize })
    else none
  | .clPrepare n =>
    if s.cl.state = .handshakeDone then some (.prepare, false, { sequenceId := 2, body := .prepare n false }) else none
  | .clTransfer =>
    if s.cl.state = .prepared ∧ s.dbufLen.toNat ≤ s.params.dataMax then
      some (.transfer, false,
        { sequenceId := 3, body := .dataPacket 0 (stagedData s) (crc32Bootloader (stagedData s)) })
    else none
  | .clVerify =>
    if s.cl.state = .dataSent then
      some (.verify, false, { sequenceId := 4, body := .prepare s.cl.stagedLen true })
    else none
  | .clRunSession =>
    if s.cl.state = .connected ∧ s.dbufLen.toNat ≤ s.params.dataMax then
      some (.handshake, true, { sequenceId := 1, body := .handshake s.params.capabilities s.params.maxPacketSize })
    else none
  | .nop | .rd _ | .bufRead .. | .logRead .. | .crc16Init | .crc16Update _ | .crc16Read | .crc32Init | .crc32Update _
  | .crc32Read | .txbufClear | .txbufPush _ | .encFrame | .decStart | .decReset | .clOpen | .clClose | .dbufClear
  | .dbufPush _ | .rxByte _ | .rxTimeout | .rxError | .sigReset | .sigAbort => none

/-- A state whose exchange has been acknowledged, and whose client has moved on to a state: `LAST_RESULT` and the fields of
the `Ack` are recorded and `FAILED_PHASE` is 0 (R262, R264 to R266). -/
def acknowledged (c : ClState) (res : Word) (msg : List Byte) (s : State) : State :=
  { s with
    mem := s.mem.writeList (Memory.addr .ackmsg 0) msg
    cl := { s.cl with
      state := c, failedPhase := none, lastResult := res, ackSuccess := true
      ackmsgLen := BitVec.ofNat 11 msg.length } }

/-- The phases that `CL.RUN_SESSION` starts after a good response: from a state `s` whose exchange has just received it,
the phase that follows, its request, and the state `u` in which it starts, the good response being recorded and the
client moved on (R259, R262 to R267). A transfer starts only when `DBUF_OVF` is 0. -/
inductive SessionStarts (s : State) : Phase → Request → State → Prop where
  | prepare (k : Nat) (res sc fp : Word) (bv : List Byte) :
      s.progress = .exchange .handshake true k → s.dec.state = .complete →
      msgDec s.params (bufferBytes s .rxbuf s.dec.len.toNat) =
        some { sequenceId := 1, result := res, body := .handshakeResponse bv sc fp } →
      SessionStarts s .prepare { sequenceId := 2, body := .prepare s.dbufLen false }
        { s with
          mem := s.mem.writeList (Memory.addr .bootver 0) bv
          cl := { s.cl with
            state := .handshakeDone, failedPhase := none, lastResult := res
            bootverLen := BitVec.ofNat 11 bv.length, supCaps := sc, flashPage := fp } }
  | transfer (k : Nat) (res : Word) (msg : List Byte) :
      s.progress = .exchange .prepare true k → s.dec.state = .complete →
      msgDec s.params (bufferBytes s .rxbuf s.dec.len.toNat) =
        some { sequenceId := 2, result := res, body := .ack true msg } →
      s.dbufLen.toNat ≤ s.params.dataMax →
      SessionStarts s .transfer
        { sequenceId := 3
          body := .dataPacket 0 (stagedData (acknowledged .prepared res msg s))
            (crc32Bootloader (stagedData (acknowledged .prepared res msg s))) }
        (acknowledged .prepared res msg s)
  | verify (k : Nat) (res : Word) (msg : List Byte) :
      s.progress = .exchange .transfer true k → s.dec.state = .complete →
      msgDec s.params (bufferBytes s .rxbuf s.dec.len.toNat) =
        some { sequenceId := 3, result := res, body := .ack true msg } →
      SessionStarts s .verify { sequenceId := 4, body := .prepare s.dbufLen true }
        { acknowledged .dataSent res msg s with
          cl := { (acknowledged .dataSent res msg s).cl with stagedLen := s.dbufLen } }

/-- The client's registers with one more record of a request frame in the log, or, the log being full, with `LOG_OVF`
set (R40). -/
def loggedClient (c : Client) (logMax : Nat) (r : LogRecord) : Client :=
  if c.log.length < logMax then { c with log := c.log ++ [r] } else { c with logOvf := true }

/-- TXBUF holds a message from index 0 on, RXBUF holds nothing defined, and every other byte of the memory is the one of
the state before (R60, R73). -/
def MessageStored (m : List Byte) (s t : State) : Prop :=
  (∀ i (h : i < m.length), t.mem.readAt (Memory.addr .txbuf i) = some m[i]) ∧
    (∀ i, i < 2 ^ 32 → t.mem.readAt (Memory.addr .rxbuf i) = none) ∧
    ∀ a, 2 ^ 32 ≤ a → (a < Memory.addr .txbuf 0 ∨ Memory.addr .txbuf m.length ≤ a) → t.mem.readAt a = s.mem.readAt a

/-- What the write half of an exchange has done when the link took the whole frame of the message (R262): the message is
in TXBUF, the frame is out and flushed, it is logged, `SEQ` is set, the decoder has been restarted, and the exchange is
in its first attempt; no response has been emitted. -/
def RequestSent (p : Phase) (session : Bool) (m : List Byte) (s t : State) : Prop :=
  t.engine = s.engine ∧ t.txLen = BitVec.ofNat 11 m.length ∧ t.dec = { Decoder.reset with state := .syncing } ∧
    t.dbufLen = s.dbufLen ∧
    t.cl = loggedClient { s.cl with seq := BitVec.ofNat 32 p.number } s.params.logMax
      { frameType := BitVec.ofNat 3 p.number
        totalLen := BitVec.ofNat 12 (frameBytes m).length
        payloadLen := BitVec.ofNat 11 m.length
        bytesWritten := BitVec.ofNat 12 (frameBytes m).length
        success := true } ∧
    t.lastErr = s.lastErr ∧ t.progress = .exchange p session 1 ∧ MessageStored m s t ∧
    t.link = { s.link with
      tx := s.link.tx ++ frameBytes m
      calls := s.link.calls ++ [.txWrite (frameBytes m), .txFlush]
      writeAnswers := s.link.writeAnswers.tail } ∧
    t.port = s.port ∧ t.params = s.params

/-- What a phase has done whose write failed or was short, the link having taken `n` bytes of the frame `f` of the message
`m`: the response is `TransportError`, the accepted bytes are on the transmit stream, the record says how many, and `SEQ`,
TXBUF and `TX_LEN` hold the request (R40, R262). That a write answered with `TransportError` puts no byte on the stream is
log entry 5. -/
def WriteFailed (p : Phase) (session : Bool) (m f : List Byte) (n : Nat) (s t : State) : Prop :=
  ∃ mem : Memory,
    t = respond .transportError (if session then BitVec.ofNat 32 p.number else 0) { s with
      txLen := BitVec.ofNat 11 m.length
      mem := mem
      cl := { loggedClient { s.cl with seq := BitVec.ofNat 32 p.number } s.params.logMax
          { frameType := BitVec.ofNat 3 p.number
            totalLen := BitVec.ofNat 12 f.length
            payloadLen := BitVec.ofNat 11 m.length
            bytesWritten := BitVec.ofNat 12 n
            success := false } with failedPhase := some p }
      link := { s.link with
        tx := s.link.tx ++ f.take n
        calls := s.link.calls ++
          (if nextWriteAnswer s.link = .transportError then [.txWrite f] else [.txWrite f, .txFlush])
        writeAnswers := s.link.writeAnswers.tail } } ∧
    (∀ k (h : k < m.length), mem.readAt (Memory.addr .txbuf k) = some m[k]) ∧
    ∀ a, (a < Memory.addr .txbuf 0 ∨ Memory.addr .txbuf m.length ≤ a) → mem.readAt a = s.mem.readAt a

/-- The block after a reset in the middle of the write of the frame `f`, `n` bytes of which the link had taken (R350, R352):
reset values, the link, the ports and the parameters as they were, and the prefix on the transmit stream. That nothing is
called after the write is log entry 6. -/
def resetInWrite (f : List Byte) (n : Nat) (s : State) : State :=
  { State.reset with
    epoch := s.epoch + 1, port := s.port, params := s.params
    link := { s.link with
      tx := s.link.tx ++ f.take n
      calls := s.link.calls ++ [.txWrite f], writeAnswers := s.link.writeAnswers.tail } }

/-! ### The codec -/

/-- The required fields of a request with their values: by R227 all those of R221 and R222. -/
inductive RequestField where
  | sequenceId (v : Word)
  | capabilities (v : Word)
  | maxPacketSize (v : Word)
  | totalDataLength (v : Word)
  | verifyAfterProgram (v : Bool)
  | offset (v : Word)
  | data (v : List Byte)
  | dataCrc32 (v : Word)
  deriving DecidableEq, Repr

/-- The fields a request has (R221, R222). -/
def requiredFields (r : Request) : List RequestField :=
  .sequenceId r.sequenceId ::
    match r.body with
    | .handshake c m => [.capabilities c, .maxPacketSize m]
    | .prepare n v => [.totalDataLength n, .verifyAfterProgram v]
    | .dataPacket o d crc => [.offset o, .data d, .dataCrc32 crc]

/-- The fields of a request have the types of R224: data has at most `DATA_MAX` bytes. -/
def requestTyped (p : Params) (r : Request) : Prop :=
  match r.body with
  | .handshake .. | .prepare .. => True
  | .dataPacket _ d _ => d.length ≤ p.dataMax

/-- The laws 2 to 4 of R226 for the codec that the parameters select. The laws 1 (both functions depend on their argument
alone) and 5 (`MsgDec` answers a response with exactly one body, or `MessageDecodeError`) hold by the types of `msgEnc` and
`msgDec`. The reading of law 3 is log entry 9. -/
structure MsgCodecLaws (p : Params) : Prop where
  /-- Law 2: different requests give different byte lists. -/
  injective : ∀ r r' : Request, requestTyped p r → requestTyped p r' → msgEnc p r = msgEnc p r' → r = r'
  /-- Law 3, with R227: every required field, one whose value is zero or empty too, has its own part of the bytes, which
  is never empty. -/
  fieldsPresent : ∃ spelling : RequestField → List Byte, (∀ f, spelling f ≠ []) ∧
    ∀ r : Request, requestTyped p r → ∃ parts : List (List Byte),
      parts.flatten = msgEnc p r ∧ ((requiredFields r).map spelling).Subperm parts
  /-- Law 4: a data packet is longer than its data. -/
  longerThanData : ∀ (q o crc : Word) (d : List Byte), d.length ≤ p.dataMax →
    d.length < (msgEnc p { sequenceId := q, body := .dataPacket o d crc }).length

/-- The premise of the statements that use a law of the codec: where the parameters leave `MSGCODEC` open, the codec has the
laws of R226. -/
def OpenCodecHasLaws (p : Params) : Prop := p.codec = .device → MsgCodecLaws p

/-- The transitions of `RX_STATE` (R197) on every operation but the phase commands, which restart the decoder
themselves (R262); the state may also stay. -/
def decoderMoves (i : Instr) (a b : RxState) : Bool :=
  match i with
  | .decStart => a == .idle && b == .syncing
  | .decReset => !a.reading && b == .idle
  | .rxByte _ => byteMoves a b
  | .rxTimeout | .rxError | .sigAbort => a.reading && b == .failed
  | .sigReset => b == .idle
  | .nop | .rd _ | .bufRead .. | .logRead .. | .crc16Init | .crc16Update _ | .crc16Read | .crc32Init | .crc32Update _
  | .crc32Read | .txbufClear | .txbufPush _ | .encFrame | .clOpen | .clClose | .clHandshake | .clPrepare _
  | .clTransfer | .clVerify | .clRunSession | .dbufClear | .dbufPush _ => false

/-- The phase commands (R263 to R267). -/
def isPhaseCommand : Instr → Bool
  | .clHandshake | .clPrepare _ | .clTransfer | .clVerify | .clRunSession => true
  | .nop | .rd _ | .bufRead .. | .logRead .. | .crc16Init | .crc16Update _ | .crc16Read | .crc32Init | .crc32Update _
  | .crc32Read | .txbufClear | .txbufPush _ | .encFrame | .decStart | .decReset | .clOpen | .clClose | .dbufClear
  | .dbufPush _ | .rxByte _ | .rxTimeout | .rxError | .sigReset | .sigAbort => false

end Sys2Proof.Machine
end

