-- ==== Sys2Proof/Certificates/Slice0/Obligations.lean ====
section
/-! DEFINITION. The statements for the provers. A hypothesis `s.progress = .idle` says that `BUSY` is 0 (R24). An equation
`exec i s = .next t` with `t` written out as an update of `s` is also the frame of `i`: every register, every byte of the
memory, the link and the ports are as in `s` but for what the update names. `respond e v` is `respond(status, value)`
of the spec, described by `Obligations.ResponseOfACommand`; `rxFail e` is `fail(E)`, described by
`Obligations.DecoderFailureRecorded`; `resetBlock` is described by `Obligations.SigResetResets`. -/

open Sys2Proof Sys2Proof.Machine

/-! ## The port encodings -/

/-- Decoding the symbol of an operation gives the operation back, for every operation and every operand (R100 to
R105). -/
def Obligations.DecodeOfEncode : Prop :=
  ∀ i : Instr, decode (encode i) = .ok i

/-- A command word is read exactly through the bits R103 names: two words with the same operation encode to the word with
all other bits 0, and changing the other bits changes nothing. -/
def Obligations.CommandWordBitsUsed : Prop :=
  (∀ (w : CmdWord) (i : Instr), decodeCmd w = .ok i → encode i = .cmd (w &&& usedBits i)) ∧
    ∀ (w w' : CmdWord) (i : Instr), decodeCmd w = .ok i → w' &&& usedBits i = w &&& usedBits i → decodeCmd w' = .ok i

/-- The reserved opcodes are those of R106, and a word with one is refused: only `LAST_ERR` changes. -/
def Obligations.ReservedOpcodesRefused : Prop :=
  (∀ w : CmdWord, reservedOpcode (opField w).toNat ↔ ∀ i, decodeCmd w ≠ .ok i) ∧
    ∀ (s : State) (w : CmdWord) (rest : List CmdWord),
      s.progress = .idle → s.dec.state.reading = false → (s.port.wires.headD 0).getLsbD 0 = false →
      s.port.cmd = w :: rest → reservedOpcode (opField w).toNat →
      step s = .next { s with
        lastErr := .cmdRefused
        port := { s.port with
          cmd := rest
          wires := s.port.wires.tail
          resp := s.port.resp ++ [responseWord .cmdRefused 0] } }

/-- Words of the spec's test vectors H1 to H14 and programs P1 to P5 and symbols of R104, with the operations they stand
for. The last clause, that the wire sample 1 is `SIG.RESET`, is the model's numbering of the two wires, which R105 does not
give (log entry 3, DESIGN CHOICE). -/
def Obligations.SampleWordsDecode : Prop :=
  decodeCmd 0x0000000000 = .ok .nop ∧ decodeCmd 0x0100000018 = .ok (.rd 0x18) ∧
    decodeCmd 0x0205000000 = .ok (.bufRead 5 0) ∧ decodeCmd 0x0300000102 = .ok (.logRead 2 1) ∧
    decodeCmd 0x11FFFFFF31 = .ok (.crc16Update 0x31) ∧ decodeCmd 0x1A00000000 = .ok .crc32Read ∧
    decodeCmd 0x210000007E = .ok (.txbufPush 0x7E) ∧ decodeCmd 0x3000000000 = .ok .decStart ∧
    decodeCmd 0x4300000100 = .ok (.clPrepare 256) ∧ decodeCmd 0x49000000FF = .ok (.dbufPush 0xFF) ∧
    decodeCmd 0x0500000000 = .error (.reservedOpcode 5) ∧ decodeRx 0x07E = .ok (.rxByte 0x7E) ∧
    decodeRx 0x100 = .ok .rxTimeout ∧ decodeRx 0x101 = .ok .rxError ∧ decodeWires 1 = .ok .sigReset

/-- The receive symbols (R104), and that a step takes at most one event, from the front of the receive stream and only in
a reading state (R65, R193). -/
def Obligations.ReceiveEventsTakenOneByOne : Prop :=
  (∀ e : RxSymbol, e.getLsbD 8 = false → decodeRx e = .ok (.rxByte (e.extractLsb' 0 8))) ∧
    decodeRx 0x100 = .ok .rxTimeout ∧ decodeRx 0x101 = .ok .rxError ∧
    (∀ e : RxSymbol, 0x102 ≤ e.toNat → decodeRx e = .error (.reservedSymbol e)) ∧
    ∀ s t : State, step s = .next t →
      t.link.rx = s.link.rx ∨ (s.dec.state.reading = true ∧ ∃ e, s.link.rx = e :: t.link.rx)

/-! ## The step -/

/-- A step runs the operation its port delivers: a command (R3, R24), a receive event in a reading state (R65), a reset at any
time (R350), an abort in a reading state (R330). That each step uses up one sample of the wires, that bit 0 of a sample is
`SIG.RESET` and that the sample 2 is `SIG.ABORT` are the model's (log entry 3, DESIGN CHOICE), and so is that an abort acts
while the decoder waits with nothing in the receive stream (log entry 4, DEDUCED). -/
def Obligations.StepRunsDecodedInput : Prop :=
  (∀ (s : State) (w : CmdWord) (rest : List CmdWord) (i : Instr),
      s.progress = .idle → s.dec.state.reading = false → (s.port.wires.headD 0).getLsbD 0 = false →
      s.port.cmd = w :: rest → decodeCmd w = .ok i →
      step s = exec i { s with port := { s.port with cmd := rest, wires := s.port.wires.tail } }) ∧
    (∀ (s : State) (e : RxSymbol) (rest : List RxSymbol) (i : Instr),
      s.dec.state.reading = true → s.port.wires.headD 0 = 0 → s.link.rx = e :: rest → decodeRx e = .ok i →
      step s = exec i { s with
        link := { s.link with rx := rest }
        port := { s.port with wires := s.port.wires.tail } }) ∧
    (∀ s : State, (s.port.wires.headD 0).getLsbD 0 = true →
      step s = exec .sigReset { s with port := { s.port with wires := s.port.wires.tail } }) ∧
    ∀ s : State, s.dec.state.reading = true → s.port.wires.headD 0 = 2 →
      step s = exec .sigAbort { s with port := { s.port with wires := s.port.wires.tail } }

/-- While `BUSY` is 1 the command port accepts no command (R24): the words at the port stay, and a command executed all
the same does nothing. The block waits, changing nothing but taking the sample of the wires, when it reads and the link
has no event, when it is busy without reading, and when no command is presented (log entries 4 and 13). -/
def Obligations.BlockWaitsWhileBusy : Prop :=
  (∀ (i : Instr) (s : State), isCommand i = true → s.progress ≠ .idle → exec i s = .next s) ∧
    (∀ s t : State, s.progress ≠ .idle → step s = .next t → t.port.cmd = s.port.cmd) ∧
    ∀ s : State,
      ((s.dec.state.reading = true ∧ s.port.wires.headD 0 = 0 ∧ s.link.rx = []) ∨
        (s.dec.state.reading = false ∧ (s.port.wires.headD 0).getLsbD 0 = false ∧ s.progress ≠ .idle) ∨
        (s.dec.state.reading = false ∧ (s.port.wires.headD 0).getLsbD 0 = false ∧ s.port.cmd = [])) →
      step s = .next { s with port := { s.port with wires := s.port.wires.tail } }

/-- Every operation goes on in every state, and a step stops only where the link hands over, to a reading decoder, a
symbol that no link produces (R310, R371; the stop is the model's, log entry 14). -/
def Obligations.OperationsNeverStop : Prop :=
  (∀ (i : Instr) (s : State), ∃ t, exec i s = .next t) ∧
    ∀ s : State, (∃ t, step s = .next t) ∨
      (step s = .fault .reservedReceiveSymbol ∧ s.dec.state.reading = true ∧
        ∃ (e : RxSymbol) (rest : List RxSymbol), s.link.rx = e :: rest ∧ 0x102 ≤ e.toNat)

/-! ## Responses and errors -/

/-- The response of a command: the word is emitted, `LAST_ERR` takes its status, `BUSY` becomes 0, and nothing else
changes (R24, R41, R102); `NOP` does this and nothing else (R303). -/
def Obligations.ResponseOfACommand : Prop :=
  (∀ (e : ErrKind) (v : Word) (s : State),
      respond e v s = { s with
        lastErr := e
        progress := .idle
        port := { s.port with resp := s.port.resp ++ [responseWord e v] } } ∧
      (responseWord e v).extractLsb' 32 8 = e.code ∧ (responseWord e v).extractLsb' 0 32 = v) ∧
    decodeCmd 0x0000000000 = .ok .nop ∧
    ∀ s : State, s.progress = .idle → exec .nop s = .next (respond .none 0 s)

/-- A step emits at most one response word, and with it `LAST_ERR` takes its status and `BUSY` becomes 0 (R41, R102,
R310). -/
def Obligations.AtMostOneResponse : Prop :=
  ∀ s t : State, step s = .next t →
    t.port.resp = s.port.resp ∨
      ∃ e v, t.port.resp = s.port.resp ++ [responseWord e v] ∧ t.lastErr = e ∧ t.progress = .idle

/-- A command is refused exactly in the cases of R318, and a refused command changes nothing but `LAST_ERR` and answers
`CmdRefused` with value 0. -/
def Obligations.RefusedCommandsChangeNothing : Prop :=
  ∀ (i : Instr) (s : State), isCommand i = true → s.progress = .idle →
    (refusedIn s i → exec i s = .next (respond .cmdRefused 0 s)) ∧
      (¬ refusedIn s i → ∃ t, exec i s = .next t ∧ ∀ v, t.port.resp ≠ s.port.resp ++ [responseWord .cmdRefused v])

/-! ## Host access and the status word -/

/-- The fields of `STATUS` (R23), and the codes of the decoder's states (R28), the client's states (R35) and the error
kinds (R312). -/
def Obligations.StatusWordFields : Prop :=
  (∀ s : State,
    (statusWord s).extractLsb' 0 3 = s.dec.state.code ∧
    (statusWord s).getLsbD 3 = s.dec.esc ∧
    (statusWord s).extractLsb' 4 3 = s.cl.state.code ∧
    (statusWord s).getLsbD 7 = (s.progress ≠ .idle : Bool) ∧
    (statusWord s).extractLsb' 8 8 = s.dec.err.code ∧
    (statusWord s).extractLsb' 16 8 = s.lastErr.code ∧
    (statusWord s).extractLsb' 24 3 = (match s.cl.failedPhase with | none => 0 | some p => BitVec.ofNat 3 p.number) ∧
    (statusWord s).getLsbD 27 = (s.txLen.toNat > 1024 : Bool) ∧
    (statusWord s).getLsbD 28 = (s.dbufLen.toNat > s.params.dataMax : Bool) ∧
    (statusWord s).getLsbD 29 = s.cl.logOvf ∧
    (statusWord s).extractLsb' 30 2 = 0) ∧
  [RxState.idle, .syncing, .readingLength, .readingPayload, .readingCrc, .readingEnd, .complete,
    .failed].map RxState.code = [0, 1, 2, 3, 4, 5, 6, 7] ∧
  [ClState.disconnected, .connected, .handshakeDone, .prepared, .dataSent, .verified].map ClState.code =
    [0, 1, 2, 3, 4, 5] ∧
  [ErrKind.none, .transportError, .frameSyncTimeout, .frameReadTimeout, .frameCrcMismatch, .frameEndMismatch,
    .messageDecodeError, .protocolSequenceError, .phaseFailure, .scenarioConfigError, .frameLengthInvalid,
    .frameEscapeViolation, .framePayloadTooLong, .interrupted, .cmdRefused].map ErrKind.code =
    [0x00, 0x01, 0x02, 0x03, 0x04, 0x05, 0x06, 0x07, 0x08, 0x09, 0x0A, 0x0B, 0x0C, 0x0D, 0x0E]

/-- `RD r`: the 24 registers of R42 by number, zero-extended, with no side effect but `LAST_ERR`; a reserved number is
refused (R42, R300). -/
def Obligations.RegisterRead : Prop :=
  (∀ arg : Word, decodeCmd (cmdWord 0x01 arg) = .ok (.rd (arg.extractLsb' 0 8))) ∧
    ∀ (s : State) (r : BitVec 8), s.progress = .idle →
      exec (.rd r) s = .next (match ([
        statusWord s, s.engine.crc16.setWidth 32, s.engine.crc32, s.txLen.setWidth 32, s.dec.len.setWidth 32,
        s.dec.cnt.setWidth 32, s.dec.crc.setWidth 32, s.dec.discard, s.dec.err.code.setWidth 32, s.cl.seq,
        s.cl.flashPage, s.cl.supCaps, s.cl.bootverLen.setWidth 32, s.cl.lastResult,
        (if s.cl.ackSuccess then 1 else 0), s.cl.ackmsgLen.setWidth 32, s.dbufLen, s.cl.stagedLen, s.cl.bytesXfer,
        BitVec.ofNat 32 s.cl.log.length, s.lastErr.code.setWidth 32,
        (match s.cl.failedPhase with | none => 0 | some p => BitVec.ofNat 32 p.number),
        s.dec.state.code.setWidth 32, s.cl.state.code.setWidth 32] : List Word)[r.toNat]? with
        | some v => respond .none v s
        | none => respond .cmdRefused 0 s)

/-- `BUF.READ s, i`: a byte below the buffer's valid length; everything else is refused (R301). -/
def Obligations.BufferRead : Prop :=
  (∀ arg : Word, decodeCmd (cmdWord 0x02 arg) = .ok (.bufRead (arg.extractLsb' 24 8) (arg.extractLsb' 0 24))) ∧
    (∀ (s : State) (sp : BitVec 8) (i : BitVec 24), s.progress = .idle → refusedIn s (.bufRead sp i) →
      exec (.bufRead sp i) s = .next (respond .cmdRefused 0 s)) ∧
    (∀ (s : State) (b : Space) (i : BitVec 24), s.progress = .idle →
      ¬ refusedIn s (.bufRead (BitVec.ofNat 8 b.id) i) →
      exec (.bufRead (BitVec.ofNat 8 b.id) i) s = .next (respond .none ((bufferByte s b i.toNat).setWidth 32) s)) ∧
    ∀ (s : State) (b : Space) (i : Nat) (v : Byte),
      s.mem.readAt (Memory.addr b i) = some v → bufferByte s b i = v

/-- `LOG.READ i, f`: field `f` of record `i`, record 0 the oldest; no such record or field is refused (R302). -/
def Obligations.LogRead : Prop :=
  (∀ arg : Word, decodeCmd (cmdWord 0x03 arg) = .ok (.logRead (arg.extractLsb' 0 8) (arg.extractLsb' 8 8))) ∧
    (∀ (s : State) (i f : BitVec 8), s.progress = .idle → (s.cl.log.length ≤ i.toNat ∨ 4 < f.toNat) →
      exec (.logRead i f) s = .next (respond .cmdRefused 0 s)) ∧
    ∀ (s : State) (i : BitVec 8) (r : LogRecord), s.progress = .idle → s.cl.log[i.toNat]? = some r →
      exec (.logRead i 0) s = .next (respond .none (r.frameType.setWidth 32) s) ∧
      exec (.logRead i 1) s = .next (respond .none (r.totalLen.setWidth 32) s) ∧
      exec (.logRead i 2) s = .next (respond .none (r.payloadLen.setWidth 32) s) ∧
      exec (.logRead i 3) s = .next (respond .none (r.bytesWritten.setWidth 32) s) ∧
      exec (.logRead i 4) s = .next (respond .none (if r.success then 1 else 0) s)

/-! ## The Checksum Engine -/

/-- `CRC16.INIT`, `CRC16.READ`, `CRC32.INIT` and `CRC32.READ`: the read of the CRC-32 inverts on the way out, and no read
changes a register (R131, R133, R136, R138); the values of the two generators on no byte and on the nine bytes of the
spec's examples. -/
def Obligations.CrcInitAndRead : Prop :=
  (∀ arg : Word, decodeCmd (cmdWord 0x10 arg) = .ok .crc16Init ∧ decodeCmd (cmdWord 0x12 arg) = .ok .crc16Read ∧
      decodeCmd (cmdWord 0x18 arg) = .ok .crc32Init ∧ decodeCmd (cmdWord 0x1A arg) = .ok .crc32Read) ∧
    crc16Init = 0xFFFF ∧ crc16Poly = 0x1021 ∧ crc32Init = 0xFFFFFFFF ∧ crc32Poly = 0xEDB88320 ∧
    crc16Ccitt [] = 0xFFFF ∧ crc16Ccitt [0x31, 0x32, 0x33, 0x34, 0x35, 0x36, 0x37, 0x38, 0x39] = 0x29B1 ∧
    crc32Bootloader [] = 0 ∧ crc32Bootloader [0x31, 0x32, 0x33, 0x34, 0x35, 0x36, 0x37, 0x38, 0x39] = 0xCBF43926 ∧
    ∀ s : State, s.progress = .idle →
      exec .crc16Init s = .next (respond .none 0 { s with engine := { s.engine with crc16 := 0xFFFF } }) ∧
      exec .crc16Read s = .next (respond .none (s.engine.crc16.setWidth 32) s) ∧
      exec .crc32Init s = .next (respond .none 0 { s with engine := { s.engine with crc32 := 0xFFFFFFFF } }) ∧
      exec .crc32Read s = .next (respond .none (~~~s.engine.crc32) s)

/-- `CRC16.UPDATE b`: the eight iterations, most significant bit first, and the two register values that a zero byte
leaves unchanged (R132). -/
def Obligations.Crc16Update : Prop :=
  (∀ arg : Word, decodeCmd (cmdWord 0x11 arg) = .ok (.crc16Update (arg.extractLsb' 0 8))) ∧
    (∀ (s : State) (b : Byte), s.progress = .idle →
      exec (.crc16Update b) s = .next (respond .none 0 { s with engine := { s.engine with
        crc16 := Nat.iterate (fun c => if c.getLsbD 15 then (c <<< 1) ^^^ 0x1021 else c <<< 1) 8
          (s.engine.crc16 ^^^ (b.setWidth 16 <<< 8)) } })) ∧
    (∀ c : BitVec 16, crc16Step c 0 = c ↔ c = 0 ∨ c = 0xF01F) ∧ crc16Step 0xFFFF 0x31 = 0xC782

/-- `CRC32.UPDATE b`: the eight iterations, least significant bit first (R137). -/
def Obligations.Crc32Update : Prop :=
  (∀ arg : Word, decodeCmd (cmdWord 0x19 arg) = .ok (.crc32Update (arg.extractLsb' 0 8))) ∧
    (∀ (s : State) (b : Byte), s.progress = .idle →
      exec (.crc32Update b) s = .next (respond .none 0 { s with engine := { s.engine with
        crc32 := Nat.iterate (fun c => if c.getLsbD 0 then (c >>> 1) ^^^ 0xEDB88320 else c >>> 1) 8
          (s.engine.crc32 ^^^ b.setWidth 32) } })) ∧
    crc32Step 0 0 = 0 ∧ crc32Step 0xFFFFFFFF 0x31 = 0x7C231048

/-- A frame's CRC folded in after the bytes it covers leaves 0 (K18 of the test vectors, from R132 and R134). -/
def Obligations.Crc16Residue : Prop :=
  ∀ a : List Byte, crc16Ccitt (a ++ be16 (crc16Ccitt a)) = 0

/-- `CRC16` and `CRC32` are written by the four operations of the engine that write them and by reset, and by nothing
else: not by the two reads, the encoder, the decoder or the client (R25, R26, R366). -/
def Obligations.ChecksumRegistersUntouched : Prop :=
  (∀ (i : Instr) (s t : State), isChecksum i = false → i ≠ .sigReset → noResetDuringCall s → exec i s = .next t →
      t.engine = s.engine) ∧
    (∀ (s t : State), exec .crc16Read s = .next t ∨ exec .crc32Read s = .next t → t.engine = s.engine) ∧
    (∀ (s t : State), exec .crc16Init s = .next t ∨ (∃ b, exec (.crc16Update b) s = .next t) →
      t.engine.crc32 = s.engine.crc32) ∧
    ∀ (s t : State), exec .crc32Init s = .next t ∨ (∃ b, exec (.crc32Update b) s = .next t) →
      t.engine.crc16 = s.engine.crc16

/-! ## The wire frame and the frame encoder -/

/-- The properties of `Escape` (R161), with its table (R94). -/
def Obligations.EscapeProperties : Prop :=
  (∀ (b : Byte) (p : List Byte), escape (b :: p) =
      (if b = 0x7E then [0x7D, 0x5E] else if b = 0x7F then [0x7D, 0x5F] else if b = 0x7D then [0x7D, 0x5D] else [b]) ++
        escape p) ∧
    (∀ p, (escape p).length = p.length + p.countP (fun b => b == 0x7E || b == 0x7F || b == 0x7D)) ∧
    (∀ p, 0x7E ∉ escape p ∧ 0x7F ∉ escape p) ∧
    (∀ p (i : Nat), (escape p)[i]? = some 0x7D →
      (escape p)[i + 1]? = some 0x5E ∨ (escape p)[i + 1]? = some 0x5F ∨ (escape p)[i + 1]? = some 0x5D) ∧
    Function.Injective escape ∧ (∀ p, unescape (escape p) = some p) ∧
    ∀ p q, escape (p ++ q) = escape p ++ escape q

/-- `Unescape` is the strict inverse of `Escape`: it gives a payload exactly on that payload's escaped form, and reads
the wire bytes as R97 says. -/
def Obligations.UnescapeIsStrictInverse : Prop :=
  (∀ w p : List Byte, unescape w = some p ↔ escape p = w) ∧
    (∀ (b : Byte) (w : List Byte), b ≠ 0x7D → b ≠ 0x7E → b ≠ 0x7F → unescape (b :: w) = (unescape w).map (b :: ·)) ∧
    (∀ w : List Byte, unescape (0x7D :: 0x5E :: w) = (unescape w).map (0x7E :: ·) ∧
      unescape (0x7D :: 0x5F :: w) = (unescape w).map (0x7F :: ·) ∧
      unescape (0x7D :: 0x5D :: w) = (unescape w).map (0x7D :: ·)) ∧
    (∀ w : List Byte, unescape (0x7E :: w) = none ∧ unescape (0x7F :: w) = none) ∧
    ∀ (b : Byte) (w : List Byte), b ≠ 0x5E → b ≠ 0x5F → b ≠ 0x5D → unescape (0x7D :: b :: w) = none

/-- The layout of a frame (R92, R93) and its length on the wire (R96), and that a payload over 1024 bytes has none
(R163). -/
def Obligations.FrameLayout : Prop :=
  (∀ p : List Byte, 1024 < p.length → frameEncode p = none) ∧
    ∀ p : List Byte, p.length ≤ 1024 →
      let k := p.countP fun b => b == 0x7E || b == 0x7F || b == 0x7D
      let h : List Byte := [BitVec.ofNat 8 (p.length / 256), BitVec.ofNat 8 (p.length % 256)]
      let c := crc16Ccitt (h ++ p)
      ∃ f, frameEncode p = some f ∧ f.length = 6 + p.length + k ∧ 6 ≤ f.length ∧ f.length ≤ 2054 ∧
        f[0]? = some 0x7E ∧ f[1]? = some (BitVec.ofNat 8 (p.length / 256)) ∧
        f[2]? = some (BitVec.ofNat 8 (p.length % 256)) ∧ (f.drop 3).take (p.length + k) = escape p ∧
        f[3 + p.length + k]? = some (c.extractLsb' 8 8) ∧ f[4 + p.length + k]? = some (c.extractLsb' 0 8) ∧
        f[5 + p.length + k]? = some 0x7F

/-- `TXBUF.CLEAR` and `TXBUF.PUSH b`: below 1024 bytes the byte is stored, and no other byte of any buffer changes; from
then on only the overflow is remembered (R164, R165). -/
def Obligations.TxbufCommands : Prop :=
  (∀ arg : Word, decodeCmd (cmdWord 0x20 arg) = .ok .txbufClear ∧
      decodeCmd (cmdWord 0x21 arg) = .ok (.txbufPush (arg.extractLsb' 0 8))) ∧
    (∀ s : State, s.progress = .idle → exec .txbufClear s = .next (respond .none 0 { s with txLen := 0 })) ∧
    (∀ (s : State) (b : Byte), s.progress = .idle → s.txLen.toNat < 1024 →
      ∃ m : Memory,
        exec (.txbufPush b) s = .next (respond .none ((s.txLen + 1).setWidth 32)
          { s with txLen := s.txLen + 1, mem := m }) ∧
        m.readAt (Memory.addr .txbuf s.txLen.toNat) = some b ∧
        ∀ a, a ≠ Memory.addr .txbuf s.txLen.toNat → m.readAt a = s.mem.readAt a) ∧
    (∀ (s : State) (b : Byte), s.progress = .idle → 1024 ≤ s.txLen.toNat →
      exec (.txbufPush b) s = .next (respond .none 1025 { s with txLen := 1025 })) ∧
    ∀ s : State, txOvf { s with txLen := 0 } = false ∧ txOvf { s with txLen := 1025 } = true

/-- `ENC.FRAME`: the payload is too long, or the write failed, or was short, or took the whole frame (R166, R69). That a write
answered with `TransportError` leaves the transmit stream as it was is the model's (log entry 5, DEDUCED). A reset during the
write is in `Obligations.ResetDuringACall`. -/
def Obligations.EncodeFrame : Prop :=
  (∀ arg : Word, decodeCmd (cmdWord 0x22 arg) = .ok .encFrame) ∧
    (∀ s : State, s.progress = .idle → 1024 < s.txLen.toNat →
      exec .encFrame s = .next (respond .framePayloadTooLong 0 s)) ∧
    (∀ (s : State) (f : List Byte), s.progress = .idle → s.txLen.toNat ≤ 1024 →
      frameEncode (bufferBytes s .txbuf s.txLen.toNat) = some f → nextWriteAnswer s.link = .transportError →
      exec .encFrame s = .next (respond .transportError 0 { s with link := { s.link with
        calls := s.link.calls ++ [.txWrite f], writeAnswers := s.link.writeAnswers.tail } })) ∧
    (∀ (s : State) (f : List Byte) (n : Nat), s.progress = .idle → s.txLen.toNat ≤ 1024 →
      frameEncode (bufferBytes s .txbuf s.txLen.toNat) = some f → nextWriteAnswer s.link = .accepted n → n < f.length →
      exec .encFrame s = .next (respond .transportError (BitVec.ofNat 32 n) { s with link := { s.link with
        tx := s.link.tx ++ f.take n
        calls := s.link.calls ++ [.txWrite f, .txFlush], writeAnswers := s.link.writeAnswers.tail } })) ∧
    ∀ (s : State) (f : List Byte) (n : Nat), s.progress = .idle → s.txLen.toNat ≤ 1024 →
      frameEncode (bufferBytes s .txbuf s.txLen.toNat) = some f → nextWriteAnswer s.link = .accepted n → f.length ≤ n →
      exec .encFrame s = .next (respond .none (BitVec.ofNat 32 f.length) { s with link := { s.link with
        tx := s.link.tx ++ f
        calls := s.link.calls ++ [.txWrite f, .txFlush], writeAnswers := s.link.writeAnswers.tail } })

/-! ## The frame decoder -/

/-- `DEC.START` in `Idle` starts the decoder with every register cleared, and `BUSY` becomes 1; in any other state it is
refused (R181). -/
def Obligations.DecoderStart : Prop :=
  (∀ arg : Word, decodeCmd (cmdWord 0x30 arg) = .ok .decStart) ∧
    (∀ s : State, s.progress = .idle → s.dec.state = .idle →
      exec .decStart s = .next { s with
        progress := .decode
        dec := { state := .syncing, err := .none, lenb0 := 0, lenb1 := 0, len := 0, cnt := 0, esc := false,
                 idx := false, crc := 0, discard := 0 } }) ∧
    ∀ s : State, s.progress = .idle → s.dec.state ≠ .idle → exec .decStart s = .next (respond .cmdRefused 0 s)

/-- The end of `DEC.START`'s loop: while the decoder is in a reading state it goes on; then the response follows from the
state it ended in (R181). -/
def Obligations.DecodeCommandAnswered : Prop :=
  ∀ s : State,
    (s.dec.state.reading = true → afterEvent s = s) ∧
    (s.progress = .decode → s.dec.state = .complete → afterEvent s = respond .none (s.dec.len.setWidth 32) s) ∧
    (s.progress = .decode → s.dec.state = .failed → s.dec.err = .frameSyncTimeout →
      afterEvent s = respond .frameSyncTimeout s.dec.discard s) ∧
    (s.progress = .decode → s.dec.state = .failed → s.dec.err ≠ .frameSyncTimeout →
      afterEvent s = respond s.dec.err 0 s)

/-- `fail(E)`: the decoder is in `Failed` with its error, keeps its other registers, and RXBUF holds nothing defined; every
other byte and register stays (R34, R192). -/
def Obligations.DecoderFailureRecorded : Prop :=
  ∀ (e : ErrKind) (s : State), ∃ m : Memory,
    rxFail e s = { s with dec := { s.dec with state := .failed, err := e }, mem := m, epoch := s.epoch + 1 } ∧
      (∀ i, i < 2 ^ 32 → m.readAt (Memory.addr .rxbuf i) = none) ∧
      ∀ a, 2 ^ 32 ≤ a → m.readAt a = s.mem.readAt a

/-- `DEC.RESET`: every decoder register at its reset value, RXBUF undefined, every other byte and register as before; the
link is not touched (R182). -/
def Obligations.DecoderReset : Prop :=
  (∀ arg : Word, decodeCmd (cmdWord 0x31 arg) = .ok .decReset) ∧
    ∀ s : State, s.progress = .idle → ∃ m : Memory,
      exec .decReset s = .next (respond .none 0 { s with
        dec := { state := .idle, err := .none, lenb0 := 0, lenb1 := 0, len := 0, cnt := 0, esc := false,
                 idx := false, crc := 0, discard := 0 }
        mem := m, epoch := s.epoch + 1 }) ∧
      (∀ i, i < 2 ^ 32 → m.readAt (Memory.addr .rxbuf i) = none) ∧
      ∀ a, 2 ^ 32 ≤ a → m.readAt a = s.mem.readAt a

/-- `RX.BYTE b` in `Syncing` (R184). -/
def Obligations.ByteInSyncing : Prop :=
  ∀ (s : State) (b : Byte), s.dec.state = .syncing →
    exec (.rxByte b) s = .next (
      if b = 0x7E then { s with dec := { s.dec with state := .readingLength, idx := false } }
      else { s with dec := { s.dec with discard := BitVec.ofNat 32 (min (s.dec.discard.toNat + 1) 0xFFFFFFFF) } })

/-- `RX.BYTE b` in `ReadingLength` (R185). -/
def Obligations.ByteInReadingLength : Prop :=
  (∀ (s : State) (b : Byte), s.dec.state = .readingLength → s.dec.idx = false →
      exec (.rxByte b) s = .next { s with dec := { s.dec with lenb0 := b, idx := true } }) ∧
    ∀ (s : State) (b : Byte), s.dec.state = .readingLength → s.dec.idx = true →
      let n := 256 * s.dec.lenb0.toNat + b.toNat
      let d := { s.dec with lenb1 := b, idx := false, len := BitVec.ofNat 16 n }
      exec (.rxByte b) s = .next (
        if 1024 < n then afterEvent (rxFail .frameLengthInvalid { s with dec := d })
        else if n = 0 then { s with dec := { d with state := .readingCrc } }
        else { s with dec := { d with state := .readingPayload, cnt := 0, esc := false } })

/-- `RX.BYTE b` in `ReadingPayload`: an escape byte waits for its partner; a bare marker and a wrong partner fail; any other
byte is stored unescaped at `RX_CNT`, no other byte of any buffer changing, and the field ends after `RX_LEN` stored
bytes (R186). -/
def Obligations.ByteInReadingPayload : Prop :=
  ∀ (s : State) (b : Byte), s.dec.state = .readingPayload →
    (s.dec.esc = false → b = 0x7D → exec (.rxByte b) s = .next { s with dec := { s.dec with esc := true } }) ∧
    (s.dec.esc = false → b = 0x7E ∨ b = 0x7F →
      exec (.rxByte b) s = .next (afterEvent (rxFail .frameEscapeViolation s))) ∧
    (s.dec.esc = true → b ≠ 0x5E → b ≠ 0x5F → b ≠ 0x5D →
      exec (.rxByte b) s = .next (afterEvent (rxFail .frameEscapeViolation s))) ∧
    ∀ v : Byte, (s.dec.esc = false ∧ b ≠ 0x7D ∧ b ≠ 0x7E ∧ b ≠ 0x7F ∧ v = b) ∨
        (s.dec.esc = true ∧ (b = 0x5E ∨ b = 0x5F ∨ b = 0x5D) ∧ v = b ^^^ 0x20) →
      ∃ m : Memory,
        exec (.rxByte b) s = .next { s with
          mem := m
          dec := if (s.dec.cnt + 1).toNat = s.dec.len.toNat then
              { s.dec with cnt := s.dec.cnt + 1, esc := false, state := .readingCrc, idx := false }
            else { s.dec with cnt := s.dec.cnt + 1, esc := false } } ∧
        m.readAt (Memory.addr .rxbuf s.dec.cnt.toNat) = some v ∧
        ∀ a, a ≠ Memory.addr .rxbuf s.dec.cnt.toNat → m.readAt a = s.mem.readAt a

/-- `RX.BYTE b` in `ReadingCrc` (R187). -/
def Obligations.ByteInReadingCrc : Prop :=
  ∀ (s : State) (b : Byte), s.dec.state = .readingCrc →
    exec (.rxByte b) s = .next (
      if s.dec.idx = false then { s with dec := { s.dec with crc := b.setWidth 16 <<< 8, idx := true } }
      else { s with dec := { s.dec with crc := s.dec.crc ||| b.setWidth 16, idx := false, state := .readingEnd } })

/-- `RX.BYTE b` in `ReadingEnd`: the end byte is checked first, the CRC over the length bytes as received and the payload
second (R188). -/
def Obligations.ByteInReadingEnd : Prop :=
  ∀ (s : State) (b : Byte), s.dec.state = .readingEnd →
    exec (.rxByte b) s = .next (afterEvent (
      if b ≠ 0x7F then rxFail .frameEndMismatch s
      else if crc16Ccitt ([s.dec.lenb0, s.dec.lenb1] ++ bufferBytes s .rxbuf s.dec.len.toNat) ≠ s.dec.crc then
        rxFail .frameCrcMismatch s
      else { s with dec := { s.dec with state := .complete } }))

/-- `RX.TIMEOUT`, `RX.ERROR` and `SIG.ABORT` in a reading state (R190, R191, R330); outside one an abort has no effect (R330).
That a receive event executed outside a reading state changes nothing is the model's (log entry 12, DEDUCED): the rules say
that none occurs there (R65, R183, R190, R191, R197). -/
def Obligations.TimeoutErrorAndAbort : Prop :=
  (∀ s : State, s.dec.state.reading = true →
      exec .rxTimeout s =
        .next (afterEvent (rxFail (if s.dec.state = .syncing then .frameSyncTimeout else .frameReadTimeout) s)) ∧
      exec .rxError s = .next (afterEvent (rxFail .transportError s)) ∧
      exec .sigAbort s = .next (afterEvent (rxFail .interrupted s))) ∧
    ∀ (s : State) (b : Byte), s.dec.state.reading = false →
      exec .sigAbort s = .next s ∧ exec (.rxByte b) s = .next s ∧ exec .rxTimeout s = .next s ∧
      exec .rxError s = .next s

/-- The transitions of `RX_STATE` are those of the decoder's table, on every operation but the phase commands and outside
an exchange, which restart the decoder themselves (R197, R262). -/
def Obligations.DecoderTransitions : Prop :=
  ∀ (i : Instr) (s t : State), isPhaseCommand i = false → (∀ p b k, s.progress ≠ .exchange p b k) →
    (isCommand i = true → s.dec.state.reading = false) → noResetDuringCall s → exec i s = .next t →
    t.dec.state = s.dec.state ∨ decoderMoves i s.dec.state t.dec.state = true

/-- Resynchronisation and round trip: after garbage without a start byte, the frame of any payload of at most 1024 bytes is
decoded to that payload, and what follows it stays in the link (R194, R195). -/
def Obligations.FrameDecodedAfterGarbage : Prop :=
  ∀ (s : State) (g p f : List Byte) (w : CmdWord) (cmds : List CmdWord) (rest : List RxSymbol),
    s.progress = .idle → s.dec.state = .idle → s.port.wires = [] → s.port.cmd = w :: cmds → decodeCmd w = .ok .decStart →
    0x7E ∉ g → frameEncode p = some f → s.link.rx = byteSymbols (g ++ f) ++ rest →
    ∃ t, Host.Core.run Sys2Proof.core (1 + (g ++ f).length) s = .next t ∧
      t.dec.state = .complete ∧ bufferBytes t .rxbuf t.dec.len.toNat = p ∧ t.dec.len.toNat = p.length ∧
      t.dec.cnt.toNat = p.length ∧ t.dec.discard.toNat = min g.length 0xFFFFFFFF ∧ t.dec.err = .none ∧
      t.dec.esc = false ∧ t.dec.crc = crc16Ccitt (be16 t.dec.len ++ p) ∧
      t.link = { s.link with rx := rest } ∧
      t.port = { s.port with cmd := cmds, resp := s.port.resp ++ [responseWord .none (BitVec.ofNat 32 p.length)] } ∧
      t.progress = .idle ∧ t.lastErr = .none ∧ t.engine = s.engine ∧ t.txLen = s.txLen ∧ t.dbufLen = s.dbufLen ∧
      t.cl = s.cl ∧ t.params = s.params ∧ ∀ a, 2 ^ 32 ≤ a → t.mem.readAt a = s.mem.readAt a

/-- A frame with another CRC field is consumed whole and fails with `FrameCrcMismatch`, and the stream after it is
untouched (R193, R196). -/
def Obligations.CorruptedCrcRejected : Prop :=
  ∀ (s : State) (p : List Byte) (c : BitVec 16) (w : CmdWord) (cmds : List CmdWord) (rest : List RxSymbol),
    s.progress = .idle → s.dec.state = .idle → s.port.wires = [] → s.port.cmd = w :: cmds → decodeCmd w = .ok .decStart →
    p.length ≤ 1024 → c ≠ crc16Ccitt (be16 (BitVec.ofNat 16 p.length) ++ p) →
    s.link.rx =
      byteSymbols ([0x7E] ++ be16 (BitVec.ofNat 16 p.length) ++ escape p ++ be16 c ++ [0x7F]) ++ rest →
    ∃ t, Host.Core.run Sys2Proof.core (1 + (6 + (escape p).length)) s = .next t ∧
      t.dec.state = .failed ∧ t.dec.err = .frameCrcMismatch ∧ t.dec.crc = c ∧ t.dec.len.toNat = p.length ∧
      t.link = { s.link with rx := rest } ∧ t.progress = .idle ∧
      t.port = { s.port with cmd := cmds, resp := s.port.resp ++ [responseWord .frameCrcMismatch 0] }

/-- The search for a start byte has no bound of its own: for as long as other bytes arrive the decoder discards them and
the block stays busy, the count saturating (R184, R364). -/
def Obligations.SearchGoesOn : Prop :=
  ∀ (s : State) (g : List Byte) (rest : List RxSymbol),
    s.dec.state = .syncing → s.port.wires = [] → 0x7E ∉ g → s.link.rx = byteSymbols g ++ rest →
    Host.Core.run Sys2Proof.core g.length s = .next { s with
      dec := { s.dec with discard := BitVec.ofNat 32 (min (s.dec.discard.toNat + g.length) 0xFFFFFFFF) }
      link := { s.link with rx := rest } }

/-! ## The messages -/

/-- `MsgDec` of the reference codec is the strict partial inverse of `RespEnc` (R235), where the premise keeps every length
within the 32 bits of a varint (R232); and with the reference codec this is what the client calls, on every payload a frame
can carry. -/
def Obligations.ReferenceDecoderIsStrictInverse : Prop :=
  (∀ (v : Word) (a : List Byte) (r : Response), a.length < 2 ^ 32 → (refMsgDec v a = some r ↔ refRespEnc v r = a)) ∧
    ∀ (p : Params) (a : List Byte) (r : Response), p.codec = .reference → a.length ≤ 1024 →
      (msgDec p a = some r ↔ refRespEnc p.msgVersion r = a)

/-- The laws of R226. With the reference codec the client calls the reference encoder, and the laws hold of it; its encoder is
injective on every message within the 32 bits of a varint (R232). With either codec, the laws being a premise where the codec
is left open, a frame carries one request: two requests with the same frame are the same. -/
def Obligations.ReferenceEncoderLaws : Prop :=
  (∀ (v : Word) (r r' : Request), (refMsgEnc v r).length < 2 ^ 32 → refMsgEnc v r = refMsgEnc v r' → r = r') ∧
    (∀ (v o crc q : Word) (d : List Byte),
      d.length < (refMsgEnc v { sequenceId := q, body := .dataPacket o d crc }).length) ∧
    (∀ (p : Params) (r : Request), p.codec = .reference → msgEnc p r = refMsgEnc p.msgVersion r) ∧
    (∀ p : Params, p.codec = .reference → p.wf → MsgCodecLaws p) ∧
    ∀ (p : Params) (r r' : Request) (f : List Byte), OpenCodecHasLaws p → requestTyped p r → requestTyped p r' →
      frameEncode (msgEnc p r) = some f → frameEncode (msgEnc p r') = some f → r = r'

/-- The bytes of the reference codec: a varint is the shortest list of seven-bit groups, least significant first, bit 7 set in
all but the last (R232); the tags and the order of the fields of the three requests (R233) and of the two responses (R234),
with the examples of the three rules. -/
def Obligations.ReferenceByteLayout : Prop :=
  let value (g : List Byte) : Nat := g.foldr (fun b n => b.toNat % 128 + 128 * n) 0
  (∀ v : Nat, v < 2 ^ 32 →
    value (varint v) = v ∧ 1 ≤ (varint v).length ∧ (varint v).length ≤ 5 ∧
      (∀ i (h : i < (varint v).length), (varint v)[i].getLsbD 7 = decide (i + 1 < (varint v).length)) ∧
      ∀ g : List Byte, g ≠ [] → value g = v → (varint v).length ≤ g.length) ∧
    [0, 127, 128, 1024, 0xFFFFFFFF].map varint =
      [[0x00], [0x7F], [0x80, 0x01], [0x80, 0x08], [0xFF, 0xFF, 0xFF, 0xFF, 0x0F]] ∧
    (∀ f w : Nat, w < 8 → tag f w = varint ((f <<< 3) ||| w)) ∧
    (∀ f v : Nat, fieldVarint f v = tag f 0 ++ varint v) ∧
    (∀ (f : Nat) (a : List Byte), fieldBytes f a = tag f 2 ++ varint a.length ++ a) ∧
    (∀ ver q c m : Word,
      let body : List Byte := [0x08] ++ varint c.toNat ++ [0x10] ++ varint m.toNat
      refMsgEnc ver { sequenceId := q, body := .handshake c m } =
        [0x08] ++ varint q.toNat ++ [0x10] ++ varint ver.toNat ++ [0x1A] ++ varint body.length ++ body) ∧
    (∀ (ver q n : Word) (v : Bool),
      let body : List Byte := [0x08] ++ varint n.toNat ++ [0x10] ++ [if v then 1 else 0]
      refMsgEnc ver { sequenceId := q, body := .prepare n v } =
        [0x08] ++ varint q.toNat ++ [0x10] ++ varint ver.toNat ++ [0x22] ++ varint body.length ++ body) ∧
    (∀ (ver q o crc : Word) (d : List Byte),
      let body : List Byte :=
        [0x08] ++ varint o.toNat ++ [0x12] ++ varint d.length ++ d ++ [0x18] ++ varint crc.toNat
      refMsgEnc ver { sequenceId := q, body := .dataPacket o d crc } =
        [0x08] ++ varint q.toNat ++ [0x10] ++ varint ver.toNat ++ [0x2A] ++ varint body.length ++ body) ∧
    (∀ (ver q res sc fp : Word) (bv : List Byte),
      let body : List Byte :=
        [0x0A] ++ varint bv.length ++ bv ++ [0x10] ++ varint sc.toNat ++ [0x18] ++ varint fp.toNat
      refRespEnc ver { sequenceId := q, result := res, body := .handshakeResponse bv sc fp } =
        [0x08] ++ varint q.toNat ++ [0x10] ++ varint ver.toNat ++ [0x18] ++ varint res.toNat ++
          [0x22] ++ varint body.length ++ body) ∧
    (∀ (ver q res : Word) (ok : Bool) (msg : List Byte),
      let body : List Byte := [0x08] ++ [if ok then 1 else 0] ++ [0x12] ++ varint msg.length ++ msg
      refRespEnc ver { sequenceId := q, result := res, body := .ack ok msg } =
        [0x08] ++ varint q.toNat ++ [0x10] ++ varint ver.toNat ++ [0x18] ++ varint res.toNat ++
          [0x2A] ++ varint body.length ++ body) ∧
    refMsgEnc 1 { sequenceId := 1, body := .handshake 1 1024 } =
      [0x08, 0x01, 0x10, 0x01, 0x1A, 0x05, 0x08, 0x01, 0x10, 0x80, 0x08] ∧
    refRespEnc 1 { sequenceId := 2, result := 0, body := .ack true [0x4F, 0x4B] } =
      [0x08, 0x02, 0x10, 0x01, 0x18, 0x00, 0x2A, 0x06, 0x08, 0x01, 0x12, 0x02, 0x4F, 0x4B]

/-! ## The Protocol Client -/

/-- `DBUF.CLEAR` and `DBUF.PUSH b`: below `DATA_MAX` bytes the byte is stored, and no other byte of any buffer changes; from
then on only the overflow is remembered (R254, R255). -/
def Obligations.DbufCommands : Prop :=
  (∀ arg : Word, decodeCmd (cmdWord 0x48 arg) = .ok .dbufClear ∧
      decodeCmd (cmdWord 0x49 arg) = .ok (.dbufPush (arg.extractLsb' 0 8))) ∧
    (∀ s : State, s.progress = .idle → exec .dbufClear s = .next (respond .none 0 { s with dbufLen := 0 })) ∧
    (∀ (s : State) (b : Byte), s.progress = .idle → s.dbufLen.toNat < s.params.dataMax →
      ∃ m : Memory,
        exec (.dbufPush b) s = .next (respond .none (s.dbufLen + 1) { s with dbufLen := s.dbufLen + 1, mem := m }) ∧
        m.readAt (Memory.addr .dbuf s.dbufLen.toNat) = some b ∧
        ∀ a, a ≠ Memory.addr .dbuf s.dbufLen.toNat → m.readAt a = s.mem.readAt a) ∧
    (∀ (s : State) (b : Byte), s.progress = .idle → s.params.dataMax ≤ s.dbufLen.toNat →
      exec (.dbufPush b) s = .next (respond .none (BitVec.ofNat 32 (s.params.dataMax + 1))
        { s with dbufLen := BitVec.ofNat 32 (s.params.dataMax + 1) })) ∧
    ∀ s : State, dbufOvf { s with dbufLen := 0 } = false ∧
      (s.params.wf → dbufOvf { s with dbufLen := BitVec.ofNat 32 (s.params.dataMax + 1) } = true)

/-- `CL.OPEN` and `CL.CLOSE`. An open in `Disconnected` calls the link; a success starts a new client lifetime with the log
empty, a failure changes no register but `LAST_ERR`; in any other state it is refused (R257). A close is accepted in every
state and changes no register but `CL_STATE`; in `Disconnected` the link is not called (R258). -/
def Obligations.ClientOpenAndClose : Prop :=
  (∀ arg : Word, decodeCmd (cmdWord 0x40 arg) = .ok .clOpen ∧ decodeCmd (cmdWord 0x41 arg) = .ok .clClose) ∧
    (∀ s : State, s.progress = .idle → s.cl.state = .disconnected → nextOpenAnswer s.link = .opened →
      exec .clOpen s = .next (respond .none 0 { s with
        cl := { state := .connected, seq := 0, lastResult := 0, bootverLen := 0, supCaps := 0, flashPage := 0,
                ackSuccess := false, ackmsgLen := 0, stagedLen := 0, bytesXfer := 0, failedPhase := none, log := [],
                logOvf := false }
        link := { s.link with
          calls := s.link.calls ++ [.linkOpen], openAnswers := s.link.openAnswers.tail } })) ∧
    (∀ s : State, s.progress = .idle → s.cl.state = .disconnected → nextOpenAnswer s.link = .transportError →
      exec .clOpen s = .next (respond .transportError 0 { s with
        link := { s.link with
          calls := s.link.calls ++ [.linkOpen], openAnswers := s.link.openAnswers.tail } })) ∧
    (∀ s : State, s.progress = .idle → s.cl.state ≠ .disconnected →
      exec .clOpen s = .next (respond .cmdRefused 0 s)) ∧
    (∀ s : State, s.progress = .idle → s.cl.state ≠ .disconnected → nextCloseAnswer s.link = .closed →
      exec .clClose s = .next (respond .none 0 { s with
        cl := { s.cl with state := .disconnected }
        link := { s.link with
          calls := s.link.calls ++ [.linkClose], closeAnswers := s.link.closeAnswers.tail } })) ∧
    ∀ s : State, s.progress = .idle → s.cl.state = .disconnected → exec .clClose s = .next (respond .none 0 s)

/-- The five phase commands in the state they need, when the message fits a frame and the link takes the whole frame: the
request of R263 to R267 is in TXBUF, out, flushed and logged, and the decoder waits for the response (R262). -/
def Obligations.PhaseCommandsSendTheirRequest : Prop :=
  ∀ (s : State) (n : Nat) (x : Word), s.progress = .idle → nextWriteAnswer s.link = .accepted n →
    let hs := msgEnc s.params
      { sequenceId := 1, body := .handshake s.params.capabilities s.params.maxPacketSize }
    let pr := msgEnc s.params { sequenceId := 2, body := .prepare x false }
    let d := bufferBytes s .dbuf s.dbufLen.toNat
    let da := msgEnc s.params { sequenceId := 3, body := .dataPacket 0 d (crc32Bootloader d) }
    let ve := msgEnc s.params { sequenceId := 4, body := .prepare s.cl.stagedLen true }
    (s.cl.state = .connected → hs.length ≤ 1024 → (frameBytes hs).length ≤ n →
      ∃ t, exec .clHandshake s = .next t ∧ RequestSent .handshake false hs s t) ∧
    (s.cl.state = .handshakeDone → pr.length ≤ 1024 → (frameBytes pr).length ≤ n →
      ∃ t, exec (.clPrepare x) s = .next t ∧ RequestSent .prepare false pr s t) ∧
    (s.cl.state = .prepared → s.dbufLen.toNat ≤ s.params.dataMax → da.length ≤ 1024 → (frameBytes da).length ≤ n →
      ∃ t, exec .clTransfer s = .next t ∧ RequestSent .transfer false da s t) ∧
    (s.cl.state = .dataSent → ve.length ≤ 1024 → (frameBytes ve).length ≤ n →
      ∃ t, exec .clVerify s = .next t ∧ RequestSent .verify false ve s t) ∧
    (s.cl.state = .connected → s.dbufLen.toNat ≤ s.params.dataMax → hs.length ≤ 1024 → (frameBytes hs).length ≤ n →
      ∃ t, exec .clRunSession s = .next t ∧ RequestSent .handshake true hs s t)

/-- Data that can never be sent: a transfer or a session with `DBUF_OVF`, and any phase whose message is over 1024 bytes, the
later phases of a session among them, answer `FramePayloadTooLong` and set `FAILED_PHASE`; nothing is sent and nothing else
changes (R262, R265, R267). With 1024 bytes of data or more that is so of every transfer, whatever the codec: its message is
longer than its data (R226). -/
def Obligations.OverlongDataIsNotSent : Prop :=
  (∀ s : State, s.progress = .idle → s.cl.state = .prepared → s.params.dataMax < s.dbufLen.toNat →
      exec .clTransfer s =
        .next (respond .framePayloadTooLong 0 { s with cl := { s.cl with failedPhase := some .transfer } })) ∧
    (∀ s : State, s.progress = .idle → s.cl.state = .connected → s.params.dataMax < s.dbufLen.toNat →
      exec .clRunSession s =
        .next (respond .framePayloadTooLong 3 { s with cl := { s.cl with failedPhase := some .transfer } })) ∧
    (∀ (i : Instr) (s : State) (p : Phase) (b : Bool) (r : Request),
      s.progress = .idle → phaseRequest s i = some (p, b, r) → 1024 < (msgEnc s.params r).length →
      exec i s = .next (respond .framePayloadTooLong (if b then BitVec.ofNat 32 p.number else 0)
        { s with cl := { s.cl with failedPhase := some p } })) ∧
    (∀ (s u : State) (p : Phase) (r : Request), SessionStarts s p r u → 1024 < (msgEnc s.params r).length →
      afterEvent s = respond .framePayloadTooLong (BitVec.ofNat 32 p.number)
        { u with cl := { u.cl with failedPhase := some p } }) ∧
    (∀ (s : State) (k : Nat) (res : Word) (msg : List Byte),
      s.progress = .exchange .prepare true k → s.dec.state = .complete →
      msgDec s.params (bufferBytes s .rxbuf s.dec.len.toNat) =
        some { sequenceId := 2, result := res, body := .ack true msg } →
      s.params.dataMax < s.dbufLen.toNat →
      let u := acknowledged .prepared res msg s
      afterEvent s = respond .framePayloadTooLong 3 { u with cl := { u.cl with failedPhase := some .transfer } }) ∧
    (∀ s : State, OpenCodecHasLaws s.params → s.progress = .idle → s.cl.state = .prepared → 1024 ≤ s.dbufLen.toNat →
      exec .clTransfer s =
        .next (respond .framePayloadTooLong 0 { s with cl := { s.cl with failedPhase := some .transfer } })) ∧
    ∀ (s u : State) (r : Request), OpenCodecHasLaws s.params → SessionStarts s .transfer r u → 1024 ≤ s.dbufLen.toNat →
      afterEvent s = respond .framePayloadTooLong 3 { u with cl := { u.cl with failedPhase := some .transfer } }

/-- A phase whose write fails or is short ends with `TransportError`, the phases that a session starts later among them; the
accepted bytes are on the transmit stream, the record says how many, and `SEQ`, TXBUF and `TX_LEN` hold the request (R262,
R363). That a write answered with `TransportError` puts no byte of the frame on the transmit stream is the model's (log
entry 5, DEDUCED). A reset during the write is in `Obligations.ResetDuringACall`. -/
def Obligations.FailedWriteEndsThePhase : Prop :=
  (∀ (i : Instr) (s : State) (p : Phase) (b : Bool) (r : Request) (f : List Byte) (n : Nat),
    s.progress = .idle → phaseRequest s i = some (p, b, r) → frameEncode (msgEnc s.params r) = some f → n < f.length →
    (nextWriteAnswer s.link = .accepted n ∨ (nextWriteAnswer s.link = .transportError ∧ n = 0)) →
    ∃ t, exec i s = .next t ∧ WriteFailed p b (msgEnc s.params r) f n s t) ∧
    ∀ (s u : State) (p : Phase) (r : Request) (f : List Byte) (n : Nat),
      SessionStarts s p r u → frameEncode (msgEnc s.params r) = some f → n < f.length →
      (nextWriteAnswer s.link = .accepted n ∨ (nextWriteAnswer s.link = .transportError ∧ n = 0)) →
      WriteFailed p true (msgEnc s.params r) f n u (afterEvent s)

/-- A decoder failure inside an exchange: after `TransportError` or `Interrupted`, or in the last attempt, the phase
fails with the decoder's error and `CL_STATE` stays; otherwise the decoder is restarted for one more attempt, and
nothing is sent again (R261, R262). -/
def Obligations.RetryPolicy : Prop :=
  ∀ (s : State) (p : Phase) (b : Bool) (k : Nat), s.progress = .exchange p b k → s.dec.state = .failed →
    (s.dec.err = .transportError ∨ s.dec.err = .interrupted ∨ k = s.params.rxAttempts →
      afterEvent s = respond s.dec.err (if b then BitVec.ofNat 32 p.number else 0)
        { s with cl := { s.cl with failedPhase := some p } }) ∧
    (s.dec.err ≠ .transportError → s.dec.err ≠ .interrupted → k ≠ s.params.rxAttempts →
      ∃ m : Memory,
        afterEvent s = { s with
          dec := { state := .syncing, err := .none, lenb0 := 0, lenb1 := 0, len := 0, cnt := 0, esc := false,
                   idx := false, crc := 0, discard := 0 }
          progress := .exchange p b (k + 1)
          mem := m, epoch := s.epoch + 1 } ∧
        (∀ i, i < 2 ^ 32 → m.readAt (Memory.addr .rxbuf i) = none) ∧
        ∀ a, 2 ^ 32 ≤ a → m.readAt a = s.mem.readAt a)

/-- A complete frame that fails its phase: no message; or a wrong sequence id, tested before the body; or a body that fails
the phase. What the response carried is stored, `CL_STATE` stays, and `FAILED_PHASE` is set (R259, R262, R253, R320). -/
def Obligations.ResponseFailsThePhase : Prop :=
  ∀ (s : State) (p : Phase) (b : Bool) (k : Nat), s.progress = .exchange p b k → s.dec.state = .complete →
    let v : Word := if b then BitVec.ofNat 32 p.number else 0
    let got := msgDec s.params (bufferBytes s .rxbuf s.dec.len.toNat)
    (got = none →
      afterEvent s = respond .messageDecodeError v { s with cl := { s.cl with failedPhase := some p } }) ∧
    (∀ (q res : Word) (ok : Bool) (msg : List Byte) (e : ErrKind),
      got = some { sequenceId := q, result := res, body := .ack ok msg } →
      (q ≠ BitVec.ofNat 32 p.number ∧ e = .protocolSequenceError) ∨
        (q = BitVec.ofNat 32 p.number ∧ ok = false ∧ e = .phaseFailure) ∨
        (q = BitVec.ofNat 32 p.number ∧ ok = true ∧ p = .handshake ∧ e = .protocolSequenceError) →
      afterEvent s = respond e v { s with
        mem := s.mem.writeList (Memory.addr .ackmsg 0) msg
        cl := { s.cl with
          lastResult := res, ackSuccess := ok, ackmsgLen := BitVec.ofNat 11 msg.length, failedPhase := some p } }) ∧
    ∀ (q res sc fp : Word) (bv : List Byte),
      got = some { sequenceId := q, result := res, body := .handshakeResponse bv sc fp } →
      (q ≠ BitVec.ofNat 32 p.number ∨ p ≠ .handshake) →
      afterEvent s = respond .protocolSequenceError v { s with
        cl := { s.cl with lastResult := res, failedPhase := some p } }

/-- A phase command that succeeds: the handshake's values are recorded; an acknowledged prepare, transfer or verify moves
the client on, and the transfer records the staged length (R259, R262 to R266). -/
def Obligations.ResponseCompletesThePhase : Prop :=
  ∀ (s : State) (k : Nat) (res : Word), s.dec.state = .complete →
    let got := msgDec s.params (bufferBytes s .rxbuf s.dec.len.toNat)
    (∀ (sc fp : Word) (bv : List Byte), s.progress = .exchange .handshake false k →
      got = some { sequenceId := 1, result := res, body := .handshakeResponse bv sc fp } →
      afterEvent s = respond .none 0 { s with
        mem := s.mem.writeList (Memory.addr .bootver 0) bv
        cl := { s.cl with
          state := .handshakeDone, failedPhase := none, lastResult := res
          bootverLen := BitVec.ofNat 11 bv.length, supCaps := sc, flashPage := fp } }) ∧
    ∀ msg : List Byte,
      let c := { s.cl with
        failedPhase := none, lastResult := res, ackSuccess := true, ackmsgLen := BitVec.ofNat 11 msg.length }
      let m := s.mem.writeList (Memory.addr .ackmsg 0) msg
      (s.progress = .exchange .prepare false k →
        got = some { sequenceId := 2, result := res, body := .ack true msg } →
        afterEvent s = respond .none 0 { s with mem := m, cl := { c with state := .prepared } }) ∧
      (s.progress = .exchange .transfer false k →
        got = some { sequenceId := 3, result := res, body := .ack true msg } →
        afterEvent s = respond .none s.dbufLen
          { s with mem := m, cl := { c with state := .dataSent, stagedLen := s.dbufLen } }) ∧
      (s.progress = .exchange .verify false k →
        got = some { sequenceId := 4, result := res, body := .ack true msg } →
        afterEvent s = respond .none 0 { s with mem := m, cl := { c with state := .verified } })

/-- Inside a session a successful phase is followed by the next one (`SessionStarts`), here with a message that fits and a link
that takes the whole frame; a successful verify ends the session with `BYTES_XFER` and the response's value the length of the
data, and calls nothing (R267). A message over 1024 bytes is in `Obligations.OverlongDataIsNotSent`, a failed or short write
in `Obligations.FailedWriteEndsThePhase`, a reset during the write in `Obligations.ResetDuringACall`. -/
def Obligations.SessionGoesOn : Prop :=
  (∀ (s u : State) (p : Phase) (r : Request) (n : Nat),
    SessionStarts s p r u → (msgEnc s.params r).length ≤ 1024 → nextWriteAnswer s.link = .accepted n →
    (frameBytes (msgEnc s.params r)).length ≤ n →
    RequestSent p true (msgEnc s.params r) u (afterEvent s)) ∧
    ∀ (s : State) (k : Nat) (res : Word) (msg : List Byte),
      s.progress = .exchange .verify true k → s.dec.state = .complete →
      msgDec s.params (bufferBytes s .rxbuf s.dec.len.toNat) =
        some { sequenceId := 4, result := res, body := .ack true msg } →
      let u := acknowledged .verified res msg s
      afterEvent s = respond .none s.dbufLen { u with cl := { u.cl with bytesXfer := s.dbufLen } }

/-- The only transitions of `CL_STATE` are the five forward arrows, close and reset, from every state that meets the
invariant (R251). -/
def Obligations.ClientTransitions : Prop :=
  ∀ (i : Instr) (s t : State), Inv s → exec i s = .next t → t.cl.state ≠ s.cl.state →
    clientMoves s.cl.state t.cl.state = true ∧
      (t.cl.state = .connected → i = .clOpen) ∧
      (t.cl.state = .disconnected →
        i = .clClose ∨ i = .sigReset ∨ ¬ noResetDuringCall s) ∧
      (t.cl.state ≠ .connected → t.cl.state ≠ .disconnected → ∃ b, i = .rxByte b)

/-- The whole session: with four frames that carry the four good responses, each after garbage without a start byte, and a
link that takes every frame, `CL.RUN_SESSION` answers the length of the data and leaves the client `Verified` with four
records in order (R269, R262 to R267). -/
def Obligations.FullSession : Prop :=
  ∀ (s : State) (w : CmdWord) (cmds : List CmdWord) (g₁ g₂ g₃ g₄ p₁ p₂ p₃ p₄ f₁ f₂ f₃ f₄ bv m₂ m₃ m₄ : List Byte)
    (r₁ r₂ r₃ r₄ sc fp : Word) (rest : List RxSymbol) (answers : List TxAnswer) (n₁ n₂ n₃ n₄ : Nat),
    Inv s → s.progress = .idle → s.cl.state = .connected → s.dbufLen.toNat ≤ s.params.dataMax →
    s.cl.log = [] → 4 ≤ s.params.logMax →
    s.port.wires = [] → s.port.cmd = w :: cmds → decodeCmd w = .ok .clRunSession →
    s.link.writeAnswers = [.accepted n₁, .accepted n₂, .accepted n₃, .accepted n₄] ++ answers →
    2054 ≤ n₁ → 2054 ≤ n₂ → 2054 ≤ n₃ → 2054 ≤ n₄ →
    (msgEnc s.params
      { sequenceId := 1, body := .handshake s.params.capabilities s.params.maxPacketSize }).length ≤ 1024 →
    (msgEnc s.params { sequenceId := 2, body := .prepare s.dbufLen false }).length ≤ 1024 →
    (msgEnc s.params { sequenceId := 3, body := .dataPacket 0 (stagedData s) (crc32Bootloader (stagedData s)) }).length
      ≤ 1024 →
    (msgEnc s.params { sequenceId := 4, body := .prepare s.dbufLen true }).length ≤ 1024 →
    0x7E ∉ g₁ → 0x7E ∉ g₂ → 0x7E ∉ g₃ → 0x7E ∉ g₄ →
    frameEncode p₁ = some f₁ → frameEncode p₂ = some f₂ → frameEncode p₃ = some f₃ → frameEncode p₄ = some f₄ →
    msgDec s.params p₁ = some { sequenceId := 1, result := r₁, body := .handshakeResponse bv sc fp } →
    msgDec s.params p₂ = some { sequenceId := 2, result := r₂, body := .ack true m₂ } →
    msgDec s.params p₃ = some { sequenceId := 3, result := r₃, body := .ack true m₃ } →
    msgDec s.params p₄ = some { sequenceId := 4, result := r₄, body := .ack true m₄ } →
    s.link.rx = byteSymbols ((g₁ ++ f₁) ++ (g₂ ++ f₂) ++ (g₃ ++ f₃) ++ (g₄ ++ f₄)) ++ rest →
    ∃ t, Host.Core.run Sys2Proof.core
        (1 + ((g₁ ++ f₁) ++ (g₂ ++ f₂) ++ (g₃ ++ f₃) ++ (g₄ ++ f₄)).length) s = .next t ∧
      t.port = { s.port with cmd := cmds, resp := s.port.resp ++ [responseWord .none s.dbufLen] } ∧
      t.progress = .idle ∧ t.cl.state = .verified ∧ t.cl.seq = 4 ∧ t.cl.bytesXfer = s.dbufLen ∧
      t.cl.stagedLen = s.dbufLen ∧ t.cl.failedPhase = none ∧ t.cl.log.map (·.frameType) = [1, 2, 3, 4] ∧
      t.cl.log.all (·.success) = true ∧ t.cl.supCaps = sc ∧ t.cl.flashPage = fp ∧ t.cl.lastResult = r₄ ∧
      bufferBytes t .bootver t.cl.bootverLen.toNat = bv ∧ bufferBytes t .ackmsg t.cl.ackmsgLen.toNat = m₄ ∧
      t.link.rx = rest ∧ t.link.writeAnswers = answers ∧ t.engine = s.engine ∧ t.dbufLen = s.dbufLen

/-! ## Reset, invariants and whole-machine rules -/

/-- The reset values (R42, R44): each register read by `RD` after reset, and the registers without a number. -/
def Obligations.ResetValues : Prop :=
  (∀ r : Nat, r ≤ 0x17 → readRegister State.reset r =
      some (if r = 0x01 then 0x0000FFFF else if r = 0x02 then 0xFFFFFFFF else 0)) ∧
    State.reset.dec.lenb0 = 0 ∧ State.reset.dec.lenb1 = 0 ∧ State.reset.dec.esc = false ∧
    State.reset.dec.idx = false ∧ State.reset.progress = .idle ∧ State.reset.cl.logOvf = false ∧
    State.reset.cl.log = [] ∧ ∀ a, State.reset.mem.readAt a = none

/-- `SIG.RESET` in any state, busy or not: every register at its reset value, no byte of a buffer defined, no response;
the link, the ports and the parameters as they were (R350, R351). -/
def Obligations.SigResetResets : Prop :=
  ∀ s : State, exec .sigReset s = .next (resetBlock s) ∧
    resetBlock s = { State.reset with
      epoch := s.epoch + 1, link := s.link, port := s.port, params := s.params } ∧
    ∀ a, (resetBlock s).mem.readAt a = none

/-- Reset in the middle of a call to the link: the block is reset and no response is emitted; where the call was a write,
the transmit stream has gained a prefix of the frame. For `ENC.FRAME`, the phase commands, the later phases of a session,
`CL.OPEN` and `CL.CLOSE` (R350, R352). That such a reset is an answer of the link to the call, and that `TxFlush` is not called
then, even when the link took the whole frame, are the model's (log entry 6, DEDUCED). -/
def Obligations.ResetDuringACall : Prop :=
  (∀ (s : State) (f : List Byte) (n : Nat), s.progress = .idle → s.txLen.toNat ≤ 1024 →
      frameEncode (bufferBytes s .txbuf s.txLen.toNat) = some f → nextWriteAnswer s.link = .resetDuring n →
      exec .encFrame s = .next (resetInWrite f n s)) ∧
    (∀ (i : Instr) (s : State) (p : Phase) (b : Bool) (r : Request) (f : List Byte) (n : Nat),
      s.progress = .idle → phaseRequest s i = some (p, b, r) → frameEncode (msgEnc s.params r) = some f →
      nextWriteAnswer s.link = .resetDuring n → exec i s = .next (resetInWrite f n s)) ∧
    (∀ (s u : State) (p : Phase) (r : Request) (f : List Byte) (n : Nat),
      SessionStarts s p r u → frameEncode (msgEnc s.params r) = some f → nextWriteAnswer s.link = .resetDuring n →
      afterEvent s = resetInWrite f n s) ∧
    (∀ s : State, s.progress = .idle → s.cl.state = .disconnected → nextOpenAnswer s.link = .resetDuring →
      exec .clOpen s = .next { State.reset with
        epoch := s.epoch + 1, port := s.port, params := s.params
        link := { s.link with
          calls := s.link.calls ++ [.linkOpen], openAnswers := s.link.openAnswers.tail } }) ∧
    ∀ s : State, s.progress = .idle → s.cl.state ≠ .disconnected → nextCloseAnswer s.link = .resetDuring →
      exec .clClose s = .next { State.reset with
        epoch := s.epoch + 1, port := s.port, params := s.params
        link := { s.link with
          calls := s.link.calls ++ [.linkClose], closeAnswers := s.link.closeAnswers.tail } }

/-- The invariant holds after reset. -/
def Obligations.ResetMeetsTheInvariant : Prop :=
  Inv State.reset

/-- Every step keeps the invariant: the registers stay within the legal values of R42, every byte below a length register
has been written, the decoder's registers agree with its state, and `BUSY` is 1 exactly while the decoder reads (R24,
R42, R44, R60, R189). -/
def Obligations.StepKeepsTheInvariant : Prop :=
  ∀ s t : State, Inv s → step s = .next t → Inv t

/-- The transmit stream and the trace of the link calls only grow at their end (R61, R67), and no operation changes a
parameter (R351). -/
def Obligations.TransmitStreamOnlyGrows : Prop :=
  ∀ s t : State, step s = .next t →
    (∃ b, t.link.tx = s.link.tx ++ b) ∧ (∃ c, t.link.calls = s.link.calls ++ c) ∧ t.params = s.params

/-- A buffer changes only by the operations R60 and R73 name: DBUF by `DBUF.PUSH` alone, TXBUF by `TXBUF.PUSH` and the
client's exchanges, BOOTVER and ACKMSG by the receive events of an exchange, RXBUF by the bytes received in
`ReadingPayload`, but that its bytes can also become undefined (log entry 11); reset apart. -/
def Obligations.BuffersWrittenOnlyByTheirOwners : Prop :=
  ∀ (i : Instr) (s t : State) (k : Nat), i ≠ .sigReset → noResetDuringCall s → k < 2 ^ 32 → exec i s = .next t →
    ((∀ b, i ≠ .dbufPush b) → t.mem.readAt (Memory.addr .dbuf k) = s.mem.readAt (Memory.addr .dbuf k)) ∧
    ((∀ b, i ≠ .txbufPush b) → isPhaseCommand i = false → (∀ p b a, s.progress ≠ .exchange p b a) →
      t.mem.readAt (Memory.addr .txbuf k) = s.mem.readAt (Memory.addr .txbuf k)) ∧
    ((∀ p b a, s.progress ≠ .exchange p b a) ∨ (∀ b, i ≠ .rxByte b) →
      t.mem.readAt (Memory.addr .bootver k) = s.mem.readAt (Memory.addr .bootver k) ∧
      t.mem.readAt (Memory.addr .ackmsg k) = s.mem.readAt (Memory.addr .ackmsg k)) ∧
    (s.dec.state ≠ .readingPayload ∨ (∀ b, i ≠ .rxByte b) →
      t.mem.readAt (Memory.addr .rxbuf k) = s.mem.readAt (Memory.addr .rxbuf k) ∨
        t.mem.readAt (Memory.addr .rxbuf k) = none)
end

