-- ==== Sys2Proof/Laws/Memory.lean ====
section
/-! SUPPORT. The laws of the buffer memory: a read after a write, what a write and a forgotten buffer leave alone, and
that every memory operation keeps the canonical form. -/

namespace Sys2Proof.Machine

@[simp] theorem Memory.readAt_nil (x : Nat) : Memory.readAt [] x = none := rfl

theorem Memory.readAt_cons (a : Nat) (b : Byte) (m : Memory) (x : Nat) :
    Memory.readAt ((a, b) :: m) x = if a = x then some b else Memory.readAt m x := rfl

/-- A write is read back, and every other address reads as before. -/
theorem Memory.readAt_writeAt (m : Memory) (x : Nat) (v : Byte) (y : Nat) :
    (m.writeAt x v).readAt y = if y = x then some v else m.readAt y := by
  have comm : (x = y) = (y = x) := propext eq_comm
  induction m with
  | nil => simp only [Memory.writeAt, Memory.readAt_cons, comm, Memory.readAt_nil]
  | cons c m ih =>
    obtain ⟨a, b⟩ := c
    simp only [Memory.writeAt]
    split
    · simp only [Memory.readAt_cons, comm]
    · split
      · next h => simp only [Memory.readAt_cons, comm, ← h]; split <;> rfl
      · next h =>
        simp only [Memory.readAt_cons, ih]
        by_cases ha : a = y
        · rw [if_pos ha, if_neg (by omega)]; simp [ha]
        · simp [ha]

/-- A list written from `x` on is read back at its addresses, and every other address reads as before. -/
theorem Memory.readAt_writeList (bs : List Byte) (m : Memory) (x y : Nat) :
    (m.writeList x bs).readAt y = if x ≤ y ∧ y < x + bs.length then bs[y - x]? else m.readAt y := by
  induction bs generalizing m x with
  | nil => simp only [Memory.writeList, List.length_nil]; split <;> [omega; rfl]
  | cons b bs ih =>
    simp only [Memory.writeList, ih, Memory.readAt_writeAt, List.length_cons]
    rcases Nat.lt_trichotomy y x with h | h | h
    · rw [if_neg (by omega), if_neg (by omega), if_neg (by omega)]
    · subst h; rw [if_neg (by omega), if_pos rfl, if_pos (by omega)]; simp
    · by_cases hy : y < x + 1 + bs.length
      · rw [if_pos (by omega), if_pos (by omega)]
        have : y - x = (y - (x + 1)) + 1 := by omega
        rw [this, List.getElem?_cons_succ]
      · rw [if_neg (by omega), if_neg (by omega), if_neg (by omega)]

/-- Inside the written range the read gives a byte of the list. -/
theorem Memory.readAt_writeList_inside (bs : List Byte) (m : Memory) (x i : Nat) (h : i < bs.length) :
    (m.writeList x bs).readAt (x + i) = some bs[i] := by
  rw [Memory.readAt_writeList, if_pos (by omega)]; simp [h]

/-- Outside the written range the read is as before. -/
theorem Memory.readAt_writeList_outside (bs : List Byte) (m : Memory) (x y : Nat) (h : y < x ∨ x + bs.length ≤ y) :
    (m.writeList x bs).readAt y = m.readAt y := by
  rw [Memory.readAt_writeList, if_neg (by omega)]

theorem Memory.addr_inj {sp sp' : Space} {i i' : Nat} (h : i < 2 ^ 32) (h' : i' < 2 ^ 32)
    (e : Memory.addr sp i = Memory.addr sp' i') : sp = sp' ∧ i = i' := by
  simp only [Memory.addr] at e
  have : sp.id = sp'.id := by omega
  exact ⟨by cases sp <;> cases sp' <;> simp_all [Space.id], by omega⟩

theorem Memory.readAt_filter (m : Memory) (p : Nat → Bool) (y : Nat) :
    Memory.readAt (m.filter fun c => p c.1) y = if p y then m.readAt y else none := by
  induction m with
  | nil => simp
  | cons c m ih =>
    obtain ⟨a, b⟩ := c
    simp only [List.filter_cons]
    by_cases ha : a = y
    · subst ha; split <;> simp_all [Memory.readAt_cons]
    · split <;> simp [Memory.readAt_cons, ih, ha]

/-- A forgotten buffer has no byte listed, and every other address reads as before. -/
theorem Memory.readAt_forget (m : Memory) (sp : Space) (y : Nat) :
    (m.forget sp).readAt y =
      if Memory.addr sp 0 ≤ y ∧ y < Memory.addr sp (2 ^ 32) then none else m.readAt y := by
  have := Memory.readAt_filter m
    (fun a => !(decide (Memory.addr sp 0 ≤ a) && decide (a < Memory.addr sp (2 ^ 32)))) y
  rw [Memory.forget, this]
  by_cases h : Memory.addr sp 0 ≤ y ∧ y < Memory.addr sp (2 ^ 32)
  · rw [if_pos h, if_neg]; simp only [h.1, h.2, decide_true, Bool.and_self, Bool.not_true]; decide
  · rw [if_neg h, if_pos]
    rw [← Bool.decide_and, decide_eq_false h]; rfl

theorem Memory.readAt_forget_other (m : Memory) {sp sp' : Space} (i : Nat) (hs : sp' ≠ sp) (h : i < 2 ^ 32) :
    (m.forget sp).readAt (Memory.addr sp' i) = m.readAt (Memory.addr sp' i) := by
  rw [Memory.readAt_forget, if_neg]
  simp only [Memory.addr]
  have : sp'.id ≠ sp.id := by cases sp <;> cases sp' <;> simp_all [Space.id]
  omega

/-- A write to a buffer leaves every other buffer alone. -/
theorem Memory.readAt_writeList_other (m : Memory) {sp sp' : Space} (i j : Nat) (bs : List Byte) (hs : sp' ≠ sp)
    (h : i + bs.length ≤ 2 ^ 32) (h' : j < 2 ^ 32) :
    (m.writeList (Memory.addr sp i) bs).readAt (Memory.addr sp' j) = m.readAt (Memory.addr sp' j) := by
  apply Memory.readAt_writeList_outside
  simp only [Memory.addr]
  have : sp'.id ≠ sp.id := by cases sp <;> cases sp' <;> simp_all [Space.id]
  omega

/-- The canonical form as a statement about the list of addresses. -/
theorem Memory.wf_iff (m : Memory) : m.wf = true ↔ (m.map Prod.fst).Pairwise (· < ·) := by
  induction m with
  | nil => simp [Memory.wf]
  | cons c m ih =>
    obtain ⟨a, b⟩ := c
    cases m with
    | nil => simp [Memory.wf]
    | cons c' m =>
      obtain ⟨a', b'⟩ := c'
      simp only [Memory.wf, Bool.and_eq_true, decide_eq_true_eq, ih, List.map_cons, List.pairwise_cons,
        List.mem_cons, forall_eq_or_imp]
      constructor
      · rintro ⟨h, h1, h2⟩; exact ⟨⟨h, fun x hx => lt_trans h (h1 x hx)⟩, h1, h2⟩
      · rintro ⟨⟨h, _⟩, h1, h2⟩; exact ⟨h, h1, h2⟩

theorem Memory.mem_writeAt_keys {m : Memory} {x y : Nat} {v : Byte} (h : y ∈ (m.writeAt x v).map Prod.fst) :
    y = x ∨ y ∈ m.map Prod.fst := by
  induction m with
  | nil => simpa [Memory.writeAt] using h
  | cons c m ih =>
    obtain ⟨a, b⟩ := c
    simp only [Memory.writeAt] at h
    split at h
    · simpa using h
    · split at h
      · subst x; simp at h ⊢; tauto
      · simp only [List.map_cons, List.mem_cons] at h ⊢; tauto

/-- A write keeps the canonical form. -/
theorem Memory.wf_writeAt {m : Memory} (x : Nat) (v : Byte) (h : m.wf = true) : (m.writeAt x v).wf = true := by
  rw [Memory.wf_iff] at *
  induction m with
  | nil => simp [Memory.writeAt]
  | cons c m ih =>
    obtain ⟨a, b⟩ := c
    simp only [List.map_cons, List.pairwise_cons] at h
    simp only [Memory.writeAt]
    split
    · next hx =>
      simp only [List.map_cons, List.pairwise_cons, List.mem_cons, forall_eq_or_imp]
      exact ⟨⟨hx, fun y hy => lt_trans hx (h.1 y hy)⟩, h.1, h.2⟩
    · split
      · next hx => subst hx; simpa using h
      · next hx hne =>
        simp only [List.map_cons, List.pairwise_cons]
        refine ⟨fun y hy => ?_, ih h.2⟩
        rcases Memory.mem_writeAt_keys hy with rfl | hy
        · omega
        · exact h.1 y hy

/-- A list of writes keeps the canonical form. -/
theorem Memory.wf_writeList (bs : List Byte) {m : Memory} (x : Nat) (h : m.wf = true) :
    (m.writeList x bs).wf = true := by
  induction bs generalizing m x with
  | nil => exact h
  | cons b bs ih => exact ih (x + 1) (Memory.wf_writeAt x b h)

/-- Forgetting a buffer keeps the canonical form. -/
theorem Memory.wf_forget {m : Memory} (sp : Space) (h : m.wf = true) : (m.forget sp).wf = true := by
  rw [Memory.wf_iff] at *
  exact h.sublist (List.filter_sublist.map _)

/-- The byte of a buffer depends on the memory only at its address, where one is listed. -/
theorem bufferByte_of_readAt {s : State} {sp : Space} {i : Nat} {b : Byte}
    (h : s.mem.readAt (Memory.addr sp i) = some b) : bufferByte s sp i = b := by
  simp [bufferByte, h]

@[simp] theorem bufferBytes_length (s : State) (sp : Space) (n : Nat) : (bufferBytes s sp n).length = n := by
  simp [bufferBytes]

theorem bufferBytes_succ (s : State) (sp : Space) (n : Nat) :
    bufferBytes s sp (n + 1) = bufferBytes s sp n ++ [bufferByte s sp n] := by
  simp [bufferBytes, List.range_succ]

/-- Where the bytes of a list are listed from index 0 of a buffer on, that list is what the buffer holds. -/
theorem bufferBytes_eq_of_readAt {s : State} {sp : Space} {bs : List Byte}
    (h : ∀ i (hi : i < bs.length), s.mem.readAt (Memory.addr sp i) = some bs[i]) :
    bufferBytes s sp bs.length = bs := by
  apply List.ext_getElem (by simp)
  intro i h1 h2
  simp [bufferBytes, bufferByte_of_readAt (h i h2)]

end Sys2Proof.Machine
end

