-- ==== Sys2Proof/Laws/State.lean ====
section
/-! SUPPORT. One lemma for each field of the state and each shared operation, so that no proof unfolds a record update. -/

namespace Sys2Proof.Machine

@[simp] theorem respond_engine (e : ErrKind) (v : Word) (s : State) : (respond e v s).engine = s.engine := rfl
@[simp] theorem respond_txLen (e : ErrKind) (v : Word) (s : State) : (respond e v s).txLen = s.txLen := rfl
@[simp] theorem respond_dec (e : ErrKind) (v : Word) (s : State) : (respond e v s).dec = s.dec := rfl
@[simp] theorem respond_dbufLen (e : ErrKind) (v : Word) (s : State) : (respond e v s).dbufLen = s.dbufLen := rfl
@[simp] theorem respond_cl (e : ErrKind) (v : Word) (s : State) : (respond e v s).cl = s.cl := rfl
@[simp] theorem respond_lastErr (e : ErrKind) (v : Word) (s : State) : (respond e v s).lastErr = e := rfl
@[simp] theorem respond_progress (e : ErrKind) (v : Word) (s : State) : (respond e v s).progress = .idle := rfl
@[simp] theorem respond_mem (e : ErrKind) (v : Word) (s : State) : (respond e v s).mem = s.mem := rfl
@[simp] theorem respond_epoch (e : ErrKind) (v : Word) (s : State) : (respond e v s).epoch = s.epoch := rfl
@[simp] theorem respond_link (e : ErrKind) (v : Word) (s : State) : (respond e v s).link = s.link := rfl
@[simp] theorem respond_port (e : ErrKind) (v : Word) (s : State) : (respond e v s).port = { s.port with resp := s.port.resp ++ [e.code ++ v] } := rfl
@[simp] theorem respond_params (e : ErrKind) (v : Word) (s : State) : (respond e v s).params = s.params := rfl

@[simp] theorem refuse_engine (s : State) : (refuse s).engine = s.engine := rfl
@[simp] theorem refuse_txLen (s : State) : (refuse s).txLen = s.txLen := rfl
@[simp] theorem refuse_dec (s : State) : (refuse s).dec = s.dec := rfl
@[simp] theorem refuse_dbufLen (s : State) : (refuse s).dbufLen = s.dbufLen := rfl
@[simp] theorem refuse_cl (s : State) : (refuse s).cl = s.cl := rfl
@[simp] theorem refuse_lastErr (s : State) : (refuse s).lastErr = .cmdRefused := rfl
@[simp] theorem refuse_progress (s : State) : (refuse s).progress = .idle := rfl
@[simp] theorem refuse_mem (s : State) : (refuse s).mem = s.mem := rfl
@[simp] theorem refuse_epoch (s : State) : (refuse s).epoch = s.epoch := rfl
@[simp] theorem refuse_link (s : State) : (refuse s).link = s.link := rfl
@[simp] theorem refuse_port (s : State) : (refuse s).port = { s.port with resp := s.port.resp ++ [ErrKind.cmdRefused.code ++ (0 : Word)] } := rfl
@[simp] theorem refuse_params (s : State) : (refuse s).params = s.params := rfl

@[simp] theorem writeBuffer_engine (sp : Space) (i : Nat) (bs : List Byte) (s : State) : (writeBuffer sp i bs s).engine = s.engine := rfl
@[simp] theorem writeBuffer_txLen (sp : Space) (i : Nat) (bs : List Byte) (s : State) : (writeBuffer sp i bs s).txLen = s.txLen := rfl
@[simp] theorem writeBuffer_dec (sp : Space) (i : Nat) (bs : List Byte) (s : State) : (writeBuffer sp i bs s).dec = s.dec := rfl
@[simp] theorem writeBuffer_dbufLen (sp : Space) (i : Nat) (bs : List Byte) (s : State) : (writeBuffer sp i bs s).dbufLen = s.dbufLen := rfl
@[simp] theorem writeBuffer_cl (sp : Space) (i : Nat) (bs : List Byte) (s : State) : (writeBuffer sp i bs s).cl = s.cl := rfl
@[simp] theorem writeBuffer_lastErr (sp : Space) (i : Nat) (bs : List Byte) (s : State) : (writeBuffer sp i bs s).lastErr = s.lastErr := rfl
@[simp] theorem writeBuffer_progress (sp : Space) (i : Nat) (bs : List Byte) (s : State) : (writeBuffer sp i bs s).progress = s.progress := rfl
@[simp] theorem writeBuffer_mem (sp : Space) (i : Nat) (bs : List Byte) (s : State) : (writeBuffer sp i bs s).mem = s.mem.writeList (Memory.addr sp i) bs := rfl
@[simp] theorem writeBuffer_epoch (sp : Space) (i : Nat) (bs : List Byte) (s : State) : (writeBuffer sp i bs s).epoch = s.epoch := rfl
@[simp] theorem writeBuffer_link (sp : Space) (i : Nat) (bs : List Byte) (s : State) : (writeBuffer sp i bs s).link = s.link := rfl
@[simp] theorem writeBuffer_port (sp : Space) (i : Nat) (bs : List Byte) (s : State) : (writeBuffer sp i bs s).port = s.port := rfl
@[simp] theorem writeBuffer_params (sp : Space) (i : Nat) (bs : List Byte) (s : State) : (writeBuffer sp i bs s).params = s.params := rfl

@[simp] theorem forgetRxbuf_engine (s : State) : (forgetRxbuf s).engine = s.engine := rfl
@[simp] theorem forgetRxbuf_txLen (s : State) : (forgetRxbuf s).txLen = s.txLen := rfl
@[simp] theorem forgetRxbuf_dec (s : State) : (forgetRxbuf s).dec = s.dec := rfl
@[simp] theorem forgetRxbuf_dbufLen (s : State) : (forgetRxbuf s).dbufLen = s.dbufLen := rfl
@[simp] theorem forgetRxbuf_cl (s : State) : (forgetRxbuf s).cl = s.cl := rfl
@[simp] theorem forgetRxbuf_lastErr (s : State) : (forgetRxbuf s).lastErr = s.lastErr := rfl
@[simp] theorem forgetRxbuf_progress (s : State) : (forgetRxbuf s).progress = s.progress := rfl
@[simp] theorem forgetRxbuf_mem (s : State) : (forgetRxbuf s).mem = s.mem.forget .rxbuf := rfl
@[simp] theorem forgetRxbuf_epoch (s : State) : (forgetRxbuf s).epoch = s.epoch + 1 := rfl
@[simp] theorem forgetRxbuf_link (s : State) : (forgetRxbuf s).link = s.link := rfl
@[simp] theorem forgetRxbuf_port (s : State) : (forgetRxbuf s).port = s.port := rfl
@[simp] theorem forgetRxbuf_params (s : State) : (forgetRxbuf s).params = s.params := rfl

@[simp] theorem rxFail_engine (e : ErrKind) (s : State) : (rxFail e s).engine = s.engine := rfl
@[simp] theorem rxFail_txLen (e : ErrKind) (s : State) : (rxFail e s).txLen = s.txLen := rfl
@[simp] theorem rxFail_dec (e : ErrKind) (s : State) : (rxFail e s).dec = { s.dec with state := .failed, err := e } := rfl
@[simp] theorem rxFail_dbufLen (e : ErrKind) (s : State) : (rxFail e s).dbufLen = s.dbufLen := rfl
@[simp] theorem rxFail_cl (e : ErrKind) (s : State) : (rxFail e s).cl = s.cl := rfl
@[simp] theorem rxFail_lastErr (e : ErrKind) (s : State) : (rxFail e s).lastErr = s.lastErr := rfl
@[simp] theorem rxFail_progress (e : ErrKind) (s : State) : (rxFail e s).progress = s.progress := rfl
@[simp] theorem rxFail_mem (e : ErrKind) (s : State) : (rxFail e s).mem = s.mem.forget .rxbuf := rfl
@[simp] theorem rxFail_epoch (e : ErrKind) (s : State) : (rxFail e s).epoch = s.epoch + 1 := rfl
@[simp] theorem rxFail_link (e : ErrKind) (s : State) : (rxFail e s).link = s.link := rfl
@[simp] theorem rxFail_port (e : ErrKind) (s : State) : (rxFail e s).port = s.port := rfl
@[simp] theorem rxFail_params (e : ErrKind) (s : State) : (rxFail e s).params = s.params := rfl

@[simp] theorem resetDecoder_engine (s : State) : (resetDecoder s).engine = s.engine := rfl
@[simp] theorem resetDecoder_txLen (s : State) : (resetDecoder s).txLen = s.txLen := rfl
@[simp] theorem resetDecoder_dec (s : State) : (resetDecoder s).dec = Decoder.reset := rfl
@[simp] theorem resetDecoder_dbufLen (s : State) : (resetDecoder s).dbufLen = s.dbufLen := rfl
@[simp] theorem resetDecoder_cl (s : State) : (resetDecoder s).cl = s.cl := rfl
@[simp] theorem resetDecoder_lastErr (s : State) : (resetDecoder s).lastErr = s.lastErr := rfl
@[simp] theorem resetDecoder_progress (s : State) : (resetDecoder s).progress = s.progress := rfl
@[simp] theorem resetDecoder_mem (s : State) : (resetDecoder s).mem = s.mem.forget .rxbuf := rfl
@[simp] theorem resetDecoder_epoch (s : State) : (resetDecoder s).epoch = s.epoch + 1 := rfl
@[simp] theorem resetDecoder_link (s : State) : (resetDecoder s).link = s.link := rfl
@[simp] theorem resetDecoder_port (s : State) : (resetDecoder s).port = s.port := rfl
@[simp] theorem resetDecoder_params (s : State) : (resetDecoder s).params = s.params := rfl

@[simp] theorem startDecoder_engine (s : State) : (startDecoder s).engine = s.engine := rfl
@[simp] theorem startDecoder_txLen (s : State) : (startDecoder s).txLen = s.txLen := rfl
@[simp] theorem startDecoder_dec (s : State) : (startDecoder s).dec = { Decoder.reset with state := .syncing } := rfl
@[simp] theorem startDecoder_dbufLen (s : State) : (startDecoder s).dbufLen = s.dbufLen := rfl
@[simp] theorem startDecoder_cl (s : State) : (startDecoder s).cl = s.cl := rfl
@[simp] theorem startDecoder_lastErr (s : State) : (startDecoder s).lastErr = s.lastErr := rfl
@[simp] theorem startDecoder_progress (s : State) : (startDecoder s).progress = s.progress := rfl
@[simp] theorem startDecoder_mem (s : State) : (startDecoder s).mem = s.mem := rfl
@[simp] theorem startDecoder_epoch (s : State) : (startDecoder s).epoch = s.epoch := rfl
@[simp] theorem startDecoder_link (s : State) : (startDecoder s).link = s.link := rfl
@[simp] theorem startDecoder_port (s : State) : (startDecoder s).port = s.port := rfl
@[simp] theorem startDecoder_params (s : State) : (startDecoder s).params = s.params := rfl

@[simp] theorem txWrite_engine (bs : List Byte) (s : State) : (txWrite bs s).engine = s.engine := rfl
@[simp] theorem txWrite_txLen (bs : List Byte) (s : State) : (txWrite bs s).txLen = s.txLen := rfl
@[simp] theorem txWrite_dec (bs : List Byte) (s : State) : (txWrite bs s).dec = s.dec := rfl
@[simp] theorem txWrite_dbufLen (bs : List Byte) (s : State) : (txWrite bs s).dbufLen = s.dbufLen := rfl
@[simp] theorem txWrite_cl (bs : List Byte) (s : State) : (txWrite bs s).cl = s.cl := rfl
@[simp] theorem txWrite_lastErr (bs : List Byte) (s : State) : (txWrite bs s).lastErr = s.lastErr := rfl
@[simp] theorem txWrite_progress (bs : List Byte) (s : State) : (txWrite bs s).progress = s.progress := rfl
@[simp] theorem txWrite_mem (bs : List Byte) (s : State) : (txWrite bs s).mem = s.mem := rfl
@[simp] theorem txWrite_epoch (bs : List Byte) (s : State) : (txWrite bs s).epoch = s.epoch := rfl
@[simp] theorem txWrite_port (bs : List Byte) (s : State) : (txWrite bs s).port = s.port := rfl
@[simp] theorem txWrite_params (bs : List Byte) (s : State) : (txWrite bs s).params = s.params := rfl

@[simp] theorem txFlush_engine (s : State) : (txFlush s).engine = s.engine := rfl
@[simp] theorem txFlush_txLen (s : State) : (txFlush s).txLen = s.txLen := rfl
@[simp] theorem txFlush_dec (s : State) : (txFlush s).dec = s.dec := rfl
@[simp] theorem txFlush_dbufLen (s : State) : (txFlush s).dbufLen = s.dbufLen := rfl
@[simp] theorem txFlush_cl (s : State) : (txFlush s).cl = s.cl := rfl
@[simp] theorem txFlush_lastErr (s : State) : (txFlush s).lastErr = s.lastErr := rfl
@[simp] theorem txFlush_progress (s : State) : (txFlush s).progress = s.progress := rfl
@[simp] theorem txFlush_mem (s : State) : (txFlush s).mem = s.mem := rfl
@[simp] theorem txFlush_epoch (s : State) : (txFlush s).epoch = s.epoch := rfl
@[simp] theorem txFlush_link (s : State) : (txFlush s).link = { s.link with calls := s.link.calls ++ [.txFlush] } := rfl
@[simp] theorem txFlush_port (s : State) : (txFlush s).port = s.port := rfl
@[simp] theorem txFlush_params (s : State) : (txFlush s).params = s.params := rfl

@[simp] theorem linkOpen_engine (s : State) : (linkOpen s).engine = s.engine := rfl
@[simp] theorem linkOpen_txLen (s : State) : (linkOpen s).txLen = s.txLen := rfl
@[simp] theorem linkOpen_dec (s : State) : (linkOpen s).dec = s.dec := rfl
@[simp] theorem linkOpen_dbufLen (s : State) : (linkOpen s).dbufLen = s.dbufLen := rfl
@[simp] theorem linkOpen_cl (s : State) : (linkOpen s).cl = s.cl := rfl
@[simp] theorem linkOpen_lastErr (s : State) : (linkOpen s).lastErr = s.lastErr := rfl
@[simp] theorem linkOpen_progress (s : State) : (linkOpen s).progress = s.progress := rfl
@[simp] theorem linkOpen_mem (s : State) : (linkOpen s).mem = s.mem := rfl
@[simp] theorem linkOpen_epoch (s : State) : (linkOpen s).epoch = s.epoch := rfl
@[simp] theorem linkOpen_port (s : State) : (linkOpen s).port = s.port := rfl
@[simp] theorem linkOpen_params (s : State) : (linkOpen s).params = s.params := rfl

@[simp] theorem linkClose_engine (s : State) : (linkClose s).engine = s.engine := rfl
@[simp] theorem linkClose_txLen (s : State) : (linkClose s).txLen = s.txLen := rfl
@[simp] theorem linkClose_dec (s : State) : (linkClose s).dec = s.dec := rfl
@[simp] theorem linkClose_dbufLen (s : State) : (linkClose s).dbufLen = s.dbufLen := rfl
@[simp] theorem linkClose_cl (s : State) : (linkClose s).cl = s.cl := rfl
@[simp] theorem linkClose_lastErr (s : State) : (linkClose s).lastErr = s.lastErr := rfl
@[simp] theorem linkClose_progress (s : State) : (linkClose s).progress = s.progress := rfl
@[simp] theorem linkClose_mem (s : State) : (linkClose s).mem = s.mem := rfl
@[simp] theorem linkClose_epoch (s : State) : (linkClose s).epoch = s.epoch := rfl
@[simp] theorem linkClose_port (s : State) : (linkClose s).port = s.port := rfl
@[simp] theorem linkClose_params (s : State) : (linkClose s).params = s.params := rfl

@[simp] theorem resetBlock_engine (s : State) : (resetBlock s).engine = Engine.reset := rfl
@[simp] theorem resetBlock_txLen (s : State) : (resetBlock s).txLen = 0 := rfl
@[simp] theorem resetBlock_dec (s : State) : (resetBlock s).dec = Decoder.reset := rfl
@[simp] theorem resetBlock_dbufLen (s : State) : (resetBlock s).dbufLen = 0 := rfl
@[simp] theorem resetBlock_cl (s : State) : (resetBlock s).cl = Client.reset := rfl
@[simp] theorem resetBlock_lastErr (s : State) : (resetBlock s).lastErr = .none := rfl
@[simp] theorem resetBlock_progress (s : State) : (resetBlock s).progress = .idle := rfl
@[simp] theorem resetBlock_mem (s : State) : (resetBlock s).mem = [] := rfl
@[simp] theorem resetBlock_epoch (s : State) : (resetBlock s).epoch = s.epoch + 1 := rfl
@[simp] theorem resetBlock_link (s : State) : (resetBlock s).link = s.link := rfl
@[simp] theorem resetBlock_port (s : State) : (resetBlock s).port = s.port := rfl
@[simp] theorem resetBlock_params (s : State) : (resetBlock s).params = s.params := rfl

@[simp] theorem phaseFailed_engine (p : Phase) (b : Bool) (e : ErrKind) (s : State) : (phaseFailed p b e s).engine = s.engine := rfl
@[simp] theorem phaseFailed_txLen (p : Phase) (b : Bool) (e : ErrKind) (s : State) : (phaseFailed p b e s).txLen = s.txLen := rfl
@[simp] theorem phaseFailed_dec (p : Phase) (b : Bool) (e : ErrKind) (s : State) : (phaseFailed p b e s).dec = s.dec := rfl
@[simp] theorem phaseFailed_dbufLen (p : Phase) (b : Bool) (e : ErrKind) (s : State) : (phaseFailed p b e s).dbufLen = s.dbufLen := rfl
@[simp] theorem phaseFailed_cl (p : Phase) (b : Bool) (e : ErrKind) (s : State) : (phaseFailed p b e s).cl = { s.cl with failedPhase := some p } := rfl
@[simp] theorem phaseFailed_lastErr (p : Phase) (b : Bool) (e : ErrKind) (s : State) : (phaseFailed p b e s).lastErr = e := rfl
@[simp] theorem phaseFailed_progress (p : Phase) (b : Bool) (e : ErrKind) (s : State) : (phaseFailed p b e s).progress = .idle := rfl
@[simp] theorem phaseFailed_mem (p : Phase) (b : Bool) (e : ErrKind) (s : State) : (phaseFailed p b e s).mem = s.mem := rfl
@[simp] theorem phaseFailed_epoch (p : Phase) (b : Bool) (e : ErrKind) (s : State) : (phaseFailed p b e s).epoch = s.epoch := rfl
@[simp] theorem phaseFailed_link (p : Phase) (b : Bool) (e : ErrKind) (s : State) : (phaseFailed p b e s).link = s.link := rfl
@[simp] theorem phaseFailed_port (p : Phase) (b : Bool) (e : ErrKind) (s : State) : (phaseFailed p b e s).port = { s.port with resp := s.port.resp ++ [e.code ++ (if b then BitVec.ofNat 32 p.number else (0 : Word))] } := rfl
@[simp] theorem phaseFailed_params (p : Phase) (b : Bool) (e : ErrKind) (s : State) : (phaseFailed p b e s).params = s.params := rfl

@[simp] theorem loadRequest_engine (p : Phase) (m : List Byte) (s : State) : (loadRequest p m s).engine = s.engine := rfl
@[simp] theorem loadRequest_txLen (p : Phase) (m : List Byte) (s : State) : (loadRequest p m s).txLen = BitVec.ofNat 11 m.length := rfl
@[simp] theorem loadRequest_dec (p : Phase) (m : List Byte) (s : State) : (loadRequest p m s).dec = s.dec := rfl
@[simp] theorem loadRequest_dbufLen (p : Phase) (m : List Byte) (s : State) : (loadRequest p m s).dbufLen = s.dbufLen := rfl
@[simp] theorem loadRequest_cl (p : Phase) (m : List Byte) (s : State) : (loadRequest p m s).cl = { s.cl with seq := p.seqId } := rfl
@[simp] theorem loadRequest_lastErr (p : Phase) (m : List Byte) (s : State) : (loadRequest p m s).lastErr = s.lastErr := rfl
@[simp] theorem loadRequest_progress (p : Phase) (m : List Byte) (s : State) : (loadRequest p m s).progress = s.progress := rfl
@[simp] theorem loadRequest_mem (p : Phase) (m : List Byte) (s : State) : (loadRequest p m s).mem = s.mem.writeList (Memory.addr .txbuf 0) m := rfl
@[simp] theorem loadRequest_epoch (p : Phase) (m : List Byte) (s : State) : (loadRequest p m s).epoch = s.epoch := rfl
@[simp] theorem loadRequest_link (p : Phase) (m : List Byte) (s : State) : (loadRequest p m s).link = s.link := rfl
@[simp] theorem loadRequest_port (p : Phase) (m : List Byte) (s : State) : (loadRequest p m s).port = s.port := rfl
@[simp] theorem loadRequest_params (p : Phase) (m : List Byte) (s : State) : (loadRequest p m s).params = s.params := rfl

@[simp] theorem awaitResponse_engine (p : Phase) (b : Bool) (k : Nat) (s : State) : (awaitResponse p b k s).engine = s.engine := rfl
@[simp] theorem awaitResponse_txLen (p : Phase) (b : Bool) (k : Nat) (s : State) : (awaitResponse p b k s).txLen = s.txLen := rfl
@[simp] theorem awaitResponse_dec (p : Phase) (b : Bool) (k : Nat) (s : State) : (awaitResponse p b k s).dec = { Decoder.reset with state := .syncing } := rfl
@[simp] theorem awaitResponse_dbufLen (p : Phase) (b : Bool) (k : Nat) (s : State) : (awaitResponse p b k s).dbufLen = s.dbufLen := rfl
@[simp] theorem awaitResponse_cl (p : Phase) (b : Bool) (k : Nat) (s : State) : (awaitResponse p b k s).cl = s.cl := rfl
@[simp] theorem awaitResponse_lastErr (p : Phase) (b : Bool) (k : Nat) (s : State) : (awaitResponse p b k s).lastErr = s.lastErr := rfl
@[simp] theorem awaitResponse_progress (p : Phase) (b : Bool) (k : Nat) (s : State) : (awaitResponse p b k s).progress = .exchange p b k := rfl
@[simp] theorem awaitResponse_mem (p : Phase) (b : Bool) (k : Nat) (s : State) : (awaitResponse p b k s).mem = s.mem.forget .rxbuf := rfl
@[simp] theorem awaitResponse_epoch (p : Phase) (b : Bool) (k : Nat) (s : State) : (awaitResponse p b k s).epoch = s.epoch + 1 := rfl
@[simp] theorem awaitResponse_link (p : Phase) (b : Bool) (k : Nat) (s : State) : (awaitResponse p b k s).link = s.link := rfl
@[simp] theorem awaitResponse_port (p : Phase) (b : Bool) (k : Nat) (s : State) : (awaitResponse p b k s).port = s.port := rfl
@[simp] theorem awaitResponse_params (p : Phase) (b : Bool) (k : Nat) (s : State) : (awaitResponse p b k s).params = s.params := rfl

@[simp] theorem takeWires_engine (s : State) : (takeWires s).engine = s.engine := rfl
@[simp] theorem takeWires_txLen (s : State) : (takeWires s).txLen = s.txLen := rfl
@[simp] theorem takeWires_dec (s : State) : (takeWires s).dec = s.dec := rfl
@[simp] theorem takeWires_dbufLen (s : State) : (takeWires s).dbufLen = s.dbufLen := rfl
@[simp] theorem takeWires_cl (s : State) : (takeWires s).cl = s.cl := rfl
@[simp] theorem takeWires_lastErr (s : State) : (takeWires s).lastErr = s.lastErr := rfl
@[simp] theorem takeWires_progress (s : State) : (takeWires s).progress = s.progress := rfl
@[simp] theorem takeWires_mem (s : State) : (takeWires s).mem = s.mem := rfl
@[simp] theorem takeWires_epoch (s : State) : (takeWires s).epoch = s.epoch := rfl
@[simp] theorem takeWires_link (s : State) : (takeWires s).link = s.link := rfl
@[simp] theorem takeWires_port (s : State) : (takeWires s).port = { s.port with wires := s.port.wires.tail } := rfl
@[simp] theorem takeWires_params (s : State) : (takeWires s).params = s.params := rfl

@[simp] theorem logAppend_engine (r : LogRecord) (s : State) : (logAppend r s).engine = s.engine := by
  unfold logAppend; split <;> rfl
@[simp] theorem logAppend_txLen (r : LogRecord) (s : State) : (logAppend r s).txLen = s.txLen := by
  unfold logAppend; split <;> rfl
@[simp] theorem logAppend_dec (r : LogRecord) (s : State) : (logAppend r s).dec = s.dec := by
  unfold logAppend; split <;> rfl
@[simp] theorem logAppend_dbufLen (r : LogRecord) (s : State) : (logAppend r s).dbufLen = s.dbufLen := by
  unfold logAppend; split <;> rfl
@[simp] theorem logAppend_lastErr (r : LogRecord) (s : State) : (logAppend r s).lastErr = s.lastErr := by
  unfold logAppend; split <;> rfl
@[simp] theorem logAppend_progress (r : LogRecord) (s : State) : (logAppend r s).progress = s.progress := by
  unfold logAppend; split <;> rfl
@[simp] theorem logAppend_mem (r : LogRecord) (s : State) : (logAppend r s).mem = s.mem := by
  unfold logAppend; split <;> rfl
@[simp] theorem logAppend_epoch (r : LogRecord) (s : State) : (logAppend r s).epoch = s.epoch := by
  unfold logAppend; split <;> rfl
@[simp] theorem logAppend_link (r : LogRecord) (s : State) : (logAppend r s).link = s.link := by
  unfold logAppend; split <;> rfl
@[simp] theorem logAppend_port (r : LogRecord) (s : State) : (logAppend r s).port = s.port := by
  unfold logAppend; split <;> rfl
@[simp] theorem logAppend_params (r : LogRecord) (s : State) : (logAppend r s).params = s.params := by
  unfold logAppend; split <;> rfl

@[simp] theorem recordResponse_engine (r : Response) (s : State) : (recordResponse r s).engine = s.engine := by
  unfold recordResponse; split <;> rfl
@[simp] theorem recordResponse_txLen (r : Response) (s : State) : (recordResponse r s).txLen = s.txLen := by
  unfold recordResponse; split <;> rfl
@[simp] theorem recordResponse_dec (r : Response) (s : State) : (recordResponse r s).dec = s.dec := by
  unfold recordResponse; split <;> rfl
@[simp] theorem recordResponse_dbufLen (r : Response) (s : State) : (recordResponse r s).dbufLen = s.dbufLen := by
  unfold recordResponse; split <;> rfl
@[simp] theorem recordResponse_lastErr (r : Response) (s : State) : (recordResponse r s).lastErr = s.lastErr := by
  unfold recordResponse; split <;> rfl
@[simp] theorem recordResponse_progress (r : Response) (s : State) : (recordResponse r s).progress = s.progress := by
  unfold recordResponse; split <;> rfl
@[simp] theorem recordResponse_epoch (r : Response) (s : State) : (recordResponse r s).epoch = s.epoch := by
  unfold recordResponse; split <;> rfl
@[simp] theorem recordResponse_link (r : Response) (s : State) : (recordResponse r s).link = s.link := by
  unfold recordResponse; split <;> rfl
@[simp] theorem recordResponse_port (r : Response) (s : State) : (recordResponse r s).port = s.port := by
  unfold recordResponse; split <;> rfl
@[simp] theorem recordResponse_params (r : Response) (s : State) : (recordResponse r s).params = s.params := by
  unfold recordResponse; split <;> rfl
@[simp] theorem recordSuccess_engine (p : Phase) (b : ResponseBody) (s : State) : (recordSuccess p b s).engine = s.engine := by
  unfold recordSuccess; split <;> rfl
@[simp] theorem recordSuccess_txLen (p : Phase) (b : ResponseBody) (s : State) : (recordSuccess p b s).txLen = s.txLen := by
  unfold recordSuccess; split <;> rfl
@[simp] theorem recordSuccess_dec (p : Phase) (b : ResponseBody) (s : State) : (recordSuccess p b s).dec = s.dec := by
  unfold recordSuccess; split <;> rfl
@[simp] theorem recordSuccess_dbufLen (p : Phase) (b : ResponseBody) (s : State) : (recordSuccess p b s).dbufLen = s.dbufLen := by
  unfold recordSuccess; split <;> rfl
@[simp] theorem recordSuccess_lastErr (p : Phase) (b : ResponseBody) (s : State) : (recordSuccess p b s).lastErr = s.lastErr := by
  unfold recordSuccess; split <;> rfl
@[simp] theorem recordSuccess_progress (p : Phase) (b : ResponseBody) (s : State) : (recordSuccess p b s).progress = s.progress := by
  unfold recordSuccess; split <;> rfl
@[simp] theorem recordSuccess_epoch (p : Phase) (b : ResponseBody) (s : State) : (recordSuccess p b s).epoch = s.epoch := by
  unfold recordSuccess; split <;> rfl
@[simp] theorem recordSuccess_link (p : Phase) (b : ResponseBody) (s : State) : (recordSuccess p b s).link = s.link := by
  unfold recordSuccess; split <;> rfl
@[simp] theorem recordSuccess_port (p : Phase) (b : ResponseBody) (s : State) : (recordSuccess p b s).port = s.port := by
  unfold recordSuccess; split <;> rfl
@[simp] theorem recordSuccess_params (p : Phase) (b : ResponseBody) (s : State) : (recordSuccess p b s).params = s.params := by
  unfold recordSuccess; split <;> rfl
@[simp] theorem storePayload_engine (v : Byte) (s : State) : (storePayload v s).engine = s.engine := by
  unfold storePayload; simp only []; split <;> rfl
@[simp] theorem storePayload_txLen (v : Byte) (s : State) : (storePayload v s).txLen = s.txLen := by
  unfold storePayload; simp only []; split <;> rfl
@[simp] theorem storePayload_dbufLen (v : Byte) (s : State) : (storePayload v s).dbufLen = s.dbufLen := by
  unfold storePayload; simp only []; split <;> rfl
@[simp] theorem storePayload_cl (v : Byte) (s : State) : (storePayload v s).cl = s.cl := by
  unfold storePayload; simp only []; split <;> rfl
@[simp] theorem storePayload_lastErr (v : Byte) (s : State) : (storePayload v s).lastErr = s.lastErr := by
  unfold storePayload; simp only []; split <;> rfl
@[simp] theorem storePayload_progress (v : Byte) (s : State) : (storePayload v s).progress = s.progress := by
  unfold storePayload; simp only []; split <;> rfl
@[simp] theorem storePayload_epoch (v : Byte) (s : State) : (storePayload v s).epoch = s.epoch := by
  unfold storePayload; simp only []; split <;> rfl
@[simp] theorem storePayload_link (v : Byte) (s : State) : (storePayload v s).link = s.link := by
  unfold storePayload; simp only []; split <;> rfl
@[simp] theorem storePayload_port (v : Byte) (s : State) : (storePayload v s).port = s.port := by
  unfold storePayload; simp only []; split <;> rfl
@[simp] theorem storePayload_params (v : Byte) (s : State) : (storePayload v s).params = s.params := by
  unfold storePayload; simp only []; split <;> rfl

@[simp] theorem txWrite_link_rx (bs : List Byte) (s : State) : (txWrite bs s).link.rx = s.link.rx := rfl
@[simp] theorem txWrite_link_tx (bs : List Byte) (s : State) :
    (txWrite bs s).link.tx = s.link.tx ++ bs.take (acceptedCount (nextWriteAnswer s.link) bs.length) := rfl
@[simp] theorem txWrite_link_calls (bs : List Byte) (s : State) :
    (txWrite bs s).link.calls = s.link.calls ++ [.txWrite bs] := rfl
@[simp] theorem txWrite_link_writeAnswers (bs : List Byte) (s : State) :
    (txWrite bs s).link.writeAnswers = s.link.writeAnswers.tail := rfl
@[simp] theorem txWrite_link_openAnswers (bs : List Byte) (s : State) :
    (txWrite bs s).link.openAnswers = s.link.openAnswers := rfl
@[simp] theorem linkClose_link (s : State) :
    (linkClose s).link =
      { s.link with calls := s.link.calls ++ [.linkClose], closeAnswers := s.link.closeAnswers.tail } := rfl

@[simp] theorem linkOpen_link (s : State) :
    (linkOpen s).link =
      { s.link with calls := s.link.calls ++ [.linkOpen], openAnswers := s.link.openAnswers.tail } := rfl
@[simp] theorem logAppend_cl_state (r : LogRecord) (s : State) : (logAppend r s).cl.state = s.cl.state := by
  unfold logAppend; split <;> rfl
@[simp] theorem logAppend_cl_seq (r : LogRecord) (s : State) : (logAppend r s).cl.seq = s.cl.seq := by
  unfold logAppend; split <;> rfl

end Sys2Proof.Machine
end

