-- ==== Sys2Proof/Laws/Ops.lean ====
section
/-! SUPPORT. What each shared operation can do, said once: if it is applied, one of these cases holds. -/

namespace Sys2Proof.Machine

theorem busy_eq_false_iff (s : State) : s.busy = false ↔ s.progress = .idle := by
  simp [State.busy]

theorem accept_of_busy {s : State} (h : s.busy = true) (f : State → State) : accept s f = s := by
  simp [accept, h]

theorem accept_of_idle {s : State} (h : s.busy = false) (f : State → State) : accept s f = f s := by
  simp [accept, h]

/-- A command is accepted, or the block is busy and nothing happens (R24). -/
theorem accept_cases (s : State) (f : State → State) :
    (s.busy = true ∧ accept s f = s) ∨ (s.busy = false ∧ accept s f = f s) := by
  cases h : s.busy
  · exact .inr ⟨rfl, accept_of_idle h f⟩
  · exact .inl ⟨rfl, accept_of_busy h f⟩

theorem answer_cases (v : Option Word) (s : State) :
    (∃ w, v = some w ∧ answer v s = respond .none w s) ∨ (v = none ∧ answer v s = respond .cmdRefused 0 s) := by
  cases v with
  | none => exact .inr ⟨rfl, rfl⟩
  | some w => exact .inl ⟨w, rfl, rfl⟩

/-- A record is appended while the log has room; otherwise only `LOG_OVF` is set (R40). -/
theorem logAppend_cases (r : LogRecord) (s : State) :
    (s.cl.log.length < s.params.logMax ∧ logAppend r s = { s with cl := { s.cl with log := s.cl.log ++ [r] } }) ∨
    (s.params.logMax ≤ s.cl.log.length ∧ logAppend r s = { s with cl := { s.cl with logOvf := true } }) := by
  unfold logAppend
  split
  · exact .inl ⟨‹_›, rfl⟩
  · exact .inr ⟨by omega, rfl⟩

/-- `ENC.FRAME`'s write: the whole frame, a part of it, a failed write, or a reset during it (R166, R352). -/
theorem sendFrame_cases (f : List Byte) (s : State) :
    (∃ n, nextWriteAnswer s.link = .accepted n ∧ f.length ≤ n ∧
      sendFrame f s = respond .none (BitVec.ofNat 32 f.length) (txFlush (txWrite f s))) ∨
    (∃ n, nextWriteAnswer s.link = .accepted n ∧ n < f.length ∧
      sendFrame f s = respond .transportError (BitVec.ofNat 32 n) (txFlush (txWrite f s))) ∨
    (nextWriteAnswer s.link = .transportError ∧ sendFrame f s = respond .transportError 0 (txWrite f s)) ∨
    (∃ n, nextWriteAnswer s.link = .resetDuring n ∧ sendFrame f s = resetBlock (txWrite f s)) := by
  unfold sendFrame
  cases h : nextWriteAnswer s.link with
  | transportError => exact .inr (.inr (.inl ⟨rfl, rfl⟩))
  | resetDuring n => exact .inr (.inr (.inr ⟨n, rfl, rfl⟩))
  | accepted n =>
    by_cases hn : n < f.length
    · exact .inr (.inl ⟨n, rfl, hn, by simp [hn]⟩)
    · exact .inl ⟨n, rfl, by omega, by simp [hn]⟩

/-- The write half of an exchange: the request is out and the decoder waits, or the write was short, or it failed, or
reset came during it (R262, R352). -/
theorem sendRequest_cases (p : Phase) (b : Bool) (m : List Byte) (s : State) :
    (∃ n, nextWriteAnswer s.link = .accepted n ∧ (frameBytes m).length ≤ n ∧
      sendRequest p b m s =
        awaitResponse p b 1 (logAppend (requestRecord p (frameBytes m).length m.length (frameBytes m).length)
          (txFlush (txWrite (frameBytes m) s)))) ∨
    (∃ n, nextWriteAnswer s.link = .accepted n ∧ n < (frameBytes m).length ∧
      sendRequest p b m s =
        phaseFailed p b .transportError (logAppend (requestRecord p (frameBytes m).length m.length n)
          (txFlush (txWrite (frameBytes m) s)))) ∨
    (nextWriteAnswer s.link = .transportError ∧
      sendRequest p b m s =
        phaseFailed p b .transportError (logAppend (requestRecord p (frameBytes m).length m.length 0)
          (txWrite (frameBytes m) s))) ∨
    (∃ n, nextWriteAnswer s.link = .resetDuring n ∧ sendRequest p b m s = resetBlock (txWrite (frameBytes m) s)) := by
  unfold sendRequest
  cases h : nextWriteAnswer s.link with
  | transportError => exact .inr (.inr (.inl ⟨rfl, rfl⟩))
  | resetDuring n => exact .inr (.inr (.inr ⟨n, rfl, rfl⟩))
  | accepted n =>
    by_cases hn : n < (frameBytes m).length
    · refine .inr (.inl ⟨n, rfl, hn, ?_⟩)
      simp only [hn, if_true, Nat.min_eq_left (Nat.le_of_lt hn)]
    · refine .inl ⟨n, rfl, by omega, ?_⟩
      simp only [hn, if_false, Nat.min_eq_right (Nat.le_of_not_lt hn)]

/-- The start of a phase: it fails before anything is sent, or its request is written (R262, R265). -/
theorem startPhase_cases (p : Phase) (b : Bool) (n : Word) (s : State) :
    ((p = .transfer ∧ dbufOvf s = true ∨ 1024 < (phaseMessage p n s).length) ∧
      startPhase p b n s = phaseFailed p b .framePayloadTooLong s) ∨
    (¬ (p = .transfer ∧ dbufOvf s = true) ∧ (phaseMessage p n s).length ≤ 1024 ∧
      startPhase p b n s = sendRequest p b (phaseMessage p n s) (loadRequest p (phaseMessage p n s) s)) := by
  unfold startPhase
  split
  · exact .inl ⟨.inl ‹_›, rfl⟩
  · split
    · exact .inl ⟨.inr ‹_›, rfl⟩
    · exact .inr ⟨‹_›, Nat.le_of_not_lt ‹_›, rfl⟩

/-- A phase command: refused, or its phase starts (R252). -/
theorem phaseCommand_cases (p : Phase) (n : Word) (s : State) :
    (s.cl.state = p.needs ∧ phaseCommand p n s = startPhase p false n s) ∨
    (s.cl.state ≠ p.needs ∧ phaseCommand p n s = refuse s) := by
  unfold phaseCommand
  split
  · exact .inl ⟨‹_›, rfl⟩
  · exact .inr ⟨‹_›, rfl⟩

/-- What follows a successful phase (R263 to R267). -/
theorem continueSession_cases (p : Phase) (b : Bool) (s : State) :
    (b = false ∧ continueSession p b s = respond .none (if p = .transfer then s.dbufLen else 0) s) ∨
    (b = true ∧ p = .handshake ∧ continueSession p b s = startPhase .prepare true s.dbufLen s) ∨
    (b = true ∧ p = .prepare ∧ continueSession p b s = startPhase .transfer true 0 s) ∨
    (b = true ∧ p = .transfer ∧ continueSession p b s = startPhase .verify true 0 s) ∨
    (b = true ∧ p = .verify ∧
      continueSession p b s = respond .none s.dbufLen { s with cl := { s.cl with bytesXfer := s.dbufLen } }) := by
  cases b <;> cases p <;> simp [continueSession]

/-- The judgement of a complete frame: it is no message, or a response under another sequence id, or a response that fails
the phase, or one with which the phase succeeds (R259, R262). -/
theorem judgeResponse_cases (p : Phase) (b : Bool) (s : State) :
    (msgDec s.params (rxPayload s) = none ∧ judgeResponse p b s = phaseFailed p b .messageDecodeError s) ∨
    (∃ r, msgDec s.params (rxPayload s) = some r ∧ r.sequenceId ≠ p.seqId ∧
      judgeResponse p b s = phaseFailed p b .protocolSequenceError (recordResponse r s)) ∨
    (∃ r, msgDec s.params (rxPayload s) = some r ∧ r.sequenceId = p.seqId ∧ judge p r.body ≠ .none ∧
      judgeResponse p b s = phaseFailed p b (judge p r.body) (recordResponse r s)) ∨
    (∃ r, msgDec s.params (rxPayload s) = some r ∧ r.sequenceId = p.seqId ∧ judge p r.body = .none ∧
      judgeResponse p b s = continueSession p b (recordSuccess p r.body (recordResponse r s))) := by
  unfold judgeResponse
  cases hm : msgDec s.params (rxPayload s) with
  | none => exact .inl ⟨rfl, rfl⟩
  | some r =>
    by_cases hs : r.sequenceId = p.seqId
    · by_cases hj : judge p r.body = .none
      · exact .inr (.inr (.inr ⟨r, rfl, hs, hj, by simp [hs, hj]⟩))
      · exact .inr (.inr (.inl ⟨r, rfl, hs, hj, by simp [hs, hj]⟩))
    · exact .inr (.inl ⟨r, rfl, hs, by simp [hs]⟩)

/-- The end of a decode attempt of an exchange: the response is judged, the phase fails, or another attempt is made
(R261, R262). -/
theorem finishExchange_cases (p : Phase) (b : Bool) (k : Nat) (s : State) :
    (s.dec.state = .complete ∧ finishExchange p b k s = judgeResponse p b s) ∨
    (s.dec.state ≠ .complete ∧ (k = s.params.rxAttempts ∨ endsExchange s.dec.err = true) ∧
      finishExchange p b k s = phaseFailed p b s.dec.err s) ∨
    (s.dec.state ≠ .complete ∧ k ≠ s.params.rxAttempts ∧ endsExchange s.dec.err = false ∧
      finishExchange p b k s = awaitResponse p b (k + 1) s) := by
  unfold finishExchange
  split
  · exact .inl ⟨‹_›, rfl⟩
  · split
    · exact .inr (.inl ⟨‹_›, ‹_›, rfl⟩)
    · next h => exact .inr (.inr ⟨‹_›, fun e => h (.inl e), by simpa using fun e => h (.inr e), rfl⟩)

/-- The response of `DEC.START` (R181). -/
theorem respondDecode_cases (s : State) :
    (s.dec.state = .complete ∧ respondDecode s = respond .none (s.dec.len.setWidth 32) s) ∨
    (s.dec.state ≠ .complete ∧ s.dec.err = .frameSyncTimeout ∧
      respondDecode s = respond .frameSyncTimeout s.dec.discard s) ∨
    (s.dec.state ≠ .complete ∧ s.dec.err ≠ .frameSyncTimeout ∧ respondDecode s = respond s.dec.err 0 s) := by
  unfold respondDecode
  split
  · exact .inl ⟨‹_›, rfl⟩
  · split
    · exact .inr (.inl ⟨‹_›, ‹_›, rfl⟩)
    · exact .inr (.inr ⟨‹_›, ‹_›, rfl⟩)

/-- After an event: the decoder reads on, or the command in progress is answered or goes on (R181, R262). -/
theorem afterEvent_cases (s : State) :
    (s.dec.state.reading = true ∧ afterEvent s = s) ∨
    (s.dec.state.reading = false ∧ s.progress = .idle ∧ afterEvent s = s) ∨
    (s.dec.state.reading = false ∧ s.progress = .decode ∧ afterEvent s = respondDecode s) ∨
    (∃ p b k, s.dec.state.reading = false ∧ s.progress = .exchange p b k ∧ afterEvent s = finishExchange p b k s) := by
  unfold afterEvent
  cases hr : s.dec.state.reading
  · cases hp : s.progress with
    | idle => exact .inr (.inl ⟨rfl, rfl, by simp⟩)
    | decode => exact .inr (.inr (.inl ⟨rfl, rfl, by simp⟩))
    | exchange p b k => exact .inr (.inr (.inr ⟨p, b, k, rfl, rfl, by simp⟩))
  · exact .inl ⟨rfl, by simp⟩

/-- An event is taken in a reading state only (R65). -/
theorem onEvent_cases (f : State → State) (s : State) :
    (s.dec.state.reading = true ∧ onEvent f s = afterEvent (f s)) ∨
    (s.dec.state.reading = false ∧ onEvent f s = s) := by
  unfold onEvent
  cases h : s.dec.state.reading
  · exact .inr ⟨rfl, by simp⟩
  · exact .inl ⟨rfl, by simp⟩

/-- The next operation: a reset, an abort in a reading state, a receive event in a reading state, a wait while busy, or a
command (R24, R65, R330, R350). -/
theorem nextInput_cases (s : State) :
    (decodeWires (wireSample s) = .ok .sigReset ∧ nextInput s = .run .sigReset (takeWires s)) ∨
    (decodeWires (wireSample s) = .ok .sigAbort ∧ s.dec.state.reading = true ∧
      nextInput s = .run .sigAbort (takeWires s)) ∨
    (decodeWires (wireSample s) = .error .noSignal ∧ s.dec.state.reading = true ∧
      nextInput s = nextEvent (takeWires s)) ∨
    (decodeWires (wireSample s) ≠ .ok .sigReset ∧ s.dec.state.reading = false ∧ s.busy = true ∧
      nextInput s = .wait (takeWires s)) ∨
    (decodeWires (wireSample s) ≠ .ok .sigReset ∧ s.dec.state.reading = false ∧ s.busy = false ∧
      nextInput s = nextCommand (takeWires s)) := by
  have hw : decodeWires (wireSample s) = .ok .sigReset ∨ decodeWires (wireSample s) = .ok .sigAbort ∨
      decodeWires (wireSample s) = .error .noSignal := by
    unfold decodeWires; split; · simp
    split <;> simp
  unfold nextInput
  rcases hw with h | h | h <;> rw [h] <;> cases hr : s.dec.state.reading <;> cases hb : s.busy <;> simp

end Sys2Proof.Machine
end

