-- ==== Sys2Proof/Laws/PerInstr.lean ====
section
/-! SUPPORT. A family of laws about the operations as syntax: the symbol that `encode` gives an operation is on the port
that its row of spec/30_encoding.md R100 names, and is none of the reserved symbols (R104, R105, R106). -/

namespace Sys2Proof.Laws.EncodedPort

open Sys2Proof.Machine

/-- A command word's opcode is the one it was put together with (R101). -/
theorem opField_cmdWord (op : BitVec 8) (arg : Word) : opField (cmdWord op arg) = op := by
  apply BitVec.eq_of_getElem_eq
  intro i hi
  simp only [opField, cmdWord, BitVec.getElem_extractLsb']
  rw [BitVec.getLsbD_append]
  simp [hi]

/-- The symbol of an operation is on the operation's port and is not reserved. -/
def Statement (i : Instr) : Prop :=
  match encode i with
  | .cmd w => isCommand i = true ∧ ¬ reservedOpcode (opField w).toNat
  | .rx e => isCommand i = false ∧ e.toNat < 0x102
  | .wires w => isCommand i = false ∧ w ≠ 0

/-- A command is on the command port with an opcode that is not reserved. -/
theorem of_cmd {i : Instr} {op : BitVec 8} {arg : Word} (he : encode i = .cmd (cmdWord op arg))
    (hc : isCommand i = true) (ho : ¬ reservedOpcode op.toNat) : Statement i := by
  rw [Statement, he]
  exact ⟨hc, by rwa [opField_cmdWord]⟩

theorem nop : Statement .nop := of_cmd rfl rfl (by unfold reservedOpcode; decide)
theorem rd (r : BitVec 8) : Statement (.rd r) := of_cmd rfl rfl (by unfold reservedOpcode; decide)
theorem bufRead (s : BitVec 8) (i : BitVec 24) : Statement (.bufRead s i) :=
  of_cmd rfl rfl (by unfold reservedOpcode; decide)
theorem logRead (i f : BitVec 8) : Statement (.logRead i f) := of_cmd rfl rfl (by unfold reservedOpcode; decide)
theorem crc16Init : Statement .crc16Init := of_cmd rfl rfl (by unfold reservedOpcode; decide)
theorem crc16Update (b : Byte) : Statement (.crc16Update b) := of_cmd rfl rfl (by unfold reservedOpcode; decide)
theorem crc16Read : Statement .crc16Read := of_cmd rfl rfl (by unfold reservedOpcode; decide)
theorem crc32Init : Statement .crc32Init := of_cmd rfl rfl (by unfold reservedOpcode; decide)
theorem crc32Update (b : Byte) : Statement (.crc32Update b) := of_cmd rfl rfl (by unfold reservedOpcode; decide)
theorem crc32Read : Statement .crc32Read := of_cmd rfl rfl (by unfold reservedOpcode; decide)
theorem txbufClear : Statement .txbufClear := of_cmd rfl rfl (by unfold reservedOpcode; decide)
theorem txbufPush (b : Byte) : Statement (.txbufPush b) := of_cmd rfl rfl (by unfold reservedOpcode; decide)
theorem encFrame : Statement .encFrame := of_cmd rfl rfl (by unfold reservedOpcode; decide)
theorem decStart : Statement .decStart := of_cmd rfl rfl (by unfold reservedOpcode; decide)
theorem decReset : Statement .decReset := of_cmd rfl rfl (by unfold reservedOpcode; decide)
theorem clOpen : Statement .clOpen := of_cmd rfl rfl (by unfold reservedOpcode; decide)
theorem clClose : Statement .clClose := of_cmd rfl rfl (by unfold reservedOpcode; decide)
theorem clHandshake : Statement .clHandshake := of_cmd rfl rfl (by unfold reservedOpcode; decide)
theorem clPrepare (n : Word) : Statement (.clPrepare n) := of_cmd rfl rfl (by unfold reservedOpcode; decide)
theorem clTransfer : Statement .clTransfer := of_cmd rfl rfl (by unfold reservedOpcode; decide)
theorem clVerify : Statement .clVerify := of_cmd rfl rfl (by unfold reservedOpcode; decide)
theorem clRunSession : Statement .clRunSession := of_cmd rfl rfl (by unfold reservedOpcode; decide)
theorem dbufClear : Statement .dbufClear := of_cmd rfl rfl (by unfold reservedOpcode; decide)
theorem dbufPush (b : Byte) : Statement (.dbufPush b) := of_cmd rfl rfl (by unfold reservedOpcode; decide)

theorem rxByte (b : Byte) : Statement (.rxByte b) := by
  refine ⟨rfl, ?_⟩
  have := b.isLt
  simp only [BitVec.toNat_setWidth]
  omega

theorem rxTimeout : Statement .rxTimeout := ⟨rfl, by decide⟩
theorem rxError : Statement .rxError := ⟨rfl, by decide⟩
theorem sigReset : Statement .sigReset := ⟨rfl, by decide⟩
theorem sigAbort : Statement .sigAbort := ⟨rfl, by decide⟩

end Sys2Proof.Laws.EncodedPort
end

