-- ==== Sys2Proof/Laws/Session.lean ====
section
/-! SUPPORT. What `SessionStarts` says of the model: the read half of the exchange that has its good response ends in the start
of the next phase (spec/44_protocol_client.md R267). -/

namespace Sys2Proof.Machine

@[simp] theorem acknowledged_link (c : ClState) (res : Word) (msg : List Byte) (s : State) :
    (acknowledged c res msg s).link = s.link := rfl
@[simp] theorem acknowledged_port (c : ClState) (res : Word) (msg : List Byte) (s : State) :
    (acknowledged c res msg s).port = s.port := rfl
@[simp] theorem acknowledged_params (c : ClState) (res : Word) (msg : List Byte) (s : State) :
    (acknowledged c res msg s).params = s.params := rfl
@[simp] theorem acknowledged_epoch (c : ClState) (res : Word) (msg : List Byte) (s : State) :
    (acknowledged c res msg s).epoch = s.epoch := rfl
@[simp] theorem acknowledged_dbufLen (c : ClState) (res : Word) (msg : List Byte) (s : State) :
    (acknowledged c res msg s).dbufLen = s.dbufLen := rfl
@[simp] theorem acknowledged_dec (c : ClState) (res : Word) (msg : List Byte) (s : State) :
    (acknowledged c res msg s).dec = s.dec := rfl
@[simp] theorem acknowledged_progress (c : ClState) (res : Word) (msg : List Byte) (s : State) :
    (acknowledged c res msg s).progress = s.progress := rfl

/-- An exchange whose frame is complete is judged at once. -/
theorem afterEvent_of_complete {s : State} {p : Phase} {b : Bool} {k : Nat} (h : s.progress = .exchange p b k)
    (hd : s.dec.state = .complete) : afterEvent s = judgeResponse p b s := by
  simp [afterEvent, h, hd, RxState.reading, finishExchange]

/-- An acknowledgement of a prepare, transfer or verify phase moves the client on and leaves the rest to `continueSession`. -/
theorem afterEvent_of_ack {s : State} {p : Phase} {b : Bool} {k : Nat} {res : Word} {msg : List Byte}
    (h : s.progress = .exchange p b k) (hd : s.dec.state = .complete) (hp : p ≠ .handshake)
    (hm : msgDec s.params (bufferBytes s .rxbuf s.dec.len.toNat) =
      some { sequenceId := p.seqId, result := res, body := .ack true msg }) :
    afterEvent s = continueSession p b (recordSuccess p (.ack true msg)
      (recordResponse { sequenceId := p.seqId, result := res, body := .ack true msg } s)) := by
  rw [afterEvent_of_complete h hd, judgeResponse]
  simp only [rxPayload, hm]
  cases p <;> simp_all [judge]

/-- The phase that `SessionStarts` names starts, in the state it names, with the message of the request it names; what the
environment and the staged data are has not changed. -/
theorem sessionStarts_afterEvent {s u : State} {p : Phase} {r : Request} (h : SessionStarts s p r u) :
    ∃ n, afterEvent s = startPhase p true n u ∧ phaseMessage p n u = msgEnc s.params r ∧
      (p = .transfer → dbufOvf u = false) ∧ u.link = s.link ∧ u.port = s.port ∧ u.params = s.params ∧
      u.epoch = s.epoch ∧ u.dbufLen = s.dbufLen := by
  cases h with
  | prepare k res sc fp bv h hd hm =>
    refine ⟨s.dbufLen, ?_, rfl, nofun, rfl, rfl, rfl, rfl, rfl⟩
    rw [afterEvent_of_complete h hd, judgeResponse]
    simp only [rxPayload, hm]
    rfl
  | transfer k res msg h hd hm hf =>
    exact ⟨0, afterEvent_of_ack h hd nofun hm, rfl, fun _ => by simpa [dbufOvf] using hf, rfl, rfl, rfl, rfl, rfl⟩
  | verify k res msg h hd hm => exact ⟨0, afterEvent_of_ack h hd nofun hm, rfl, nofun, rfl, rfl, rfl, rfl, rfl⟩

end Sys2Proof.Machine
end

