-- ==== Sys2Proof/Tests/Slice0.lean ====
section
/-! SUPPORT. Tests: ill-formed operations, words written out from the encoding tables of spec/30_encoding.md, single steps
with results taken from spec/95_test_vectors.md, and for each obligation with hypotheses a state and operands that meet
them. -/

namespace Sys2Proof.Tests

open Sys2Proof.Machine

/-! ## Helpers -/

/-- The next state of an outcome. -/
def after : Host.Outcome State Fault Refusal → Option State
  | .next t => some t
  | .fault _ => none
  | .refused _ => none

/-- The last response word a state has emitted, if its outcome is a next state. -/
def answerOf (o : Host.Outcome State Fault Refusal) : Option RespWord := (after o).bind fun t => t.port.resp.getLast?

/-- The state after reset with the decoder in a state, `DEC.START` in progress. -/
def receiving (d : Decoder) : State := { State.reset with dec := d, progress := .decode }

/-- The decoder in a state, its other registers 0. -/
def decoderIn (x : RxState) : Decoder := { Decoder.reset with state := x }

/-- The state after reset with the client in a state, and a link that takes the next frame. -/
def client (c : ClState) : State :=
  { State.reset with
    cl := { Client.reset with state := c }
    link := { Link.fresh with
      writeAnswers := [.accepted 3000], openAnswers := [.opened], closeAnswers := [.closed] } }

/-- The state with bytes in RXBUF and `RX_LEN` their number. -/
def withRxbuf (x : RxState) (p : List Byte) (s : State) : State :=
  { writeBuffer .rxbuf 0 p s with
    dec := { Decoder.reset with state := x, len := BitVec.ofNat 16 p.length, cnt := BitVec.ofNat 11 p.length } }

/-- An exchange whose response frame is complete. -/
def answered (p : Phase) (session : Bool) (m : List Byte) : State :=
  { withRxbuf .complete m (client p.needs) with progress := .exchange p session 1 }

/-- M7 of the test vectors: `Response` 1, 0, `HandshakeResponse` "1.0", 1, 2048. -/
def m7 : List Byte :=
  [0x08, 0x01, 0x10, 0x01, 0x18, 0x00, 0x22, 0x0A, 0x0A, 0x03, 0x31, 0x2E, 0x30, 0x10, 0x01, 0x18, 0x80, 0x10]

/-- M8 of the test vectors with sequence id `q`: `Response` q, 0, `Ack` true, "OK". -/
def m8 (q : Byte) : List Byte := [0x08, q, 0x10, 0x01, 0x18, 0x00, 0x2A, 0x06, 0x08, 0x01, 0x12, 0x02, 0x4F, 0x4B]

/-- M9 of the test vectors: `Response` 2, 0, `Ack` false, "NO". -/
def m9 : List Byte := [0x08, 0x02, 0x10, 0x01, 0x18, 0x00, 0x2A, 0x06, 0x08, 0x00, 0x12, 0x02, 0x4E, 0x4F]

/-! ## Well-formedness: an ill-formed operation for each check -/

theorem test_wf_rd : Instr.wellFormed (.rd 0x17) = true ∧ Instr.wellFormed (.rd 0x18) = false := by decide
theorem test_wf_bufRead : Instr.wellFormed (.bufRead 4 0) = true ∧ Instr.wellFormed (.bufRead 5 0) = false := by decide
theorem test_wf_logRead : Instr.wellFormed (.logRead 0 4) = true ∧ Instr.wellFormed (.logRead 0 5) = false := by decide

/-! ## Decoding: words written out from R100, R103, R104 and R105 -/

theorem test_decode_host :
    decodeCmd 0x0000000000 = .ok .nop ∧ decodeCmd 0x01FFFFFF16 = .ok (.rd 0x16) ∧
      decodeCmd 0x0203ABCDEF = .ok (.bufRead 3 0xABCDEF) ∧ decodeCmd 0x03FFFF0402 = .ok (.logRead 2 4) := by decide

theorem test_decode_crc :
    decodeCmd 0x1000000000 = .ok .crc16Init ∧ decodeCmd 0x11FFFFFF31 = .ok (.crc16Update 0x31) ∧
      decodeCmd 0x1200000000 = .ok .crc16Read ∧ decodeCmd 0x1800000000 = .ok .crc32Init ∧
      decodeCmd 0x1900000031 = .ok (.crc32Update 0x31) ∧ decodeCmd 0x1A00000000 = .ok .crc32Read := by decide

theorem test_decode_encoder :
    decodeCmd 0x2000000000 = .ok .txbufClear ∧ decodeCmd 0x210000007E = .ok (.txbufPush 0x7E) ∧
      decodeCmd 0x2200000000 = .ok .encFrame := by decide

theorem test_decode_decoder :
    decodeCmd 0x3000000000 = .ok .decStart ∧ decodeCmd 0x3100000000 = .ok .decReset ∧
      decodeRx 0x07E = .ok (.rxByte 0x7E) ∧ decodeRx 0x0FF = .ok (.rxByte 0xFF) ∧ decodeRx 0x100 = .ok .rxTimeout ∧
      decodeRx 0x101 = .ok .rxError := by decide

theorem test_decode_client :
    decodeCmd 0x4000000000 = .ok .clOpen ∧ decodeCmd 0x4100000000 = .ok .clClose ∧
      decodeCmd 0x4200000000 = .ok .clHandshake ∧ decodeCmd 0x4300000100 = .ok (.clPrepare 256) ∧
      decodeCmd 0x4400000000 = .ok .clTransfer ∧ decodeCmd 0x4500000000 = .ok .clVerify ∧
      decodeCmd 0x4600000000 = .ok .clRunSession ∧ decodeCmd 0x4800000000 = .ok .dbufClear ∧
      decodeCmd 0x49000000FF = .ok (.dbufPush 0xFF) := by decide

theorem test_decode_wires :
    decodeWires 1 = .ok .sigReset ∧ decodeWires 2 = .ok .sigAbort ∧ decodeWires 3 = .ok .sigReset ∧
      decodeWires 0 = .error .noSignal := by decide

theorem test_decode_rejects :
    decodeCmd 0x0400000000 = .error (.reservedOpcode 0x04) ∧ decodeCmd 0x4700000000 = .error (.reservedOpcode 0x47) ∧
      decodeCmd 0xFFFFFFFFFF = .error (.reservedOpcode 0xFF) ∧ decodeRx 0x102 = .error (.reservedSymbol 0x102) := by
  decide

theorem test_table_words :
    decodeTableWord 40 0x0000000000 = some .nop ∧ decodeTableWord 16 0x101 = some .rxError ∧
      decodeTableWord 8 1 = some .sigReset ∧ decodeTableWord 8 2 = some .sigAbort := by decide

theorem test_fetch_runs_the_word :
    answerOf (step (State.reset.withFetchWord 40 0x0100000001)) = some 0x000000FFFF := by decide

/-! ## Single steps -/

/-- H3, H4, H13 of the test vectors. -/
theorem test_host_after_reset :
    answerOf (exec (.rd 0x00) State.reset) = some 0x0000000000 ∧
      answerOf (exec (.rd 0x18) State.reset) = some 0x0E00000000 ∧
      answerOf (exec .nop State.reset) = some 0x0000000000 := by decide

/-- H15 of the test vectors: `STATUS` after a decode that failed with `FrameCrcMismatch`. -/
theorem test_status :
    answerOf (exec (.rd 0x00)
      { State.reset with dec := { decoderIn .failed with err := .frameCrcMismatch }, lastErr := .frameCrcMismatch }) =
      some 0x0000040407 := by decide

/-- H5 and H6 of the test vectors: the last byte of RXBUF, and the index after it. -/
theorem test_bufRead :
    answerOf (exec (.bufRead 0 2) (withRxbuf .complete [1, 2, 3] State.reset)) = some 0x0000000003 ∧
      answerOf (exec (.bufRead 0 3) (withRxbuf .complete [1, 2, 3] State.reset)) = some 0x0E00000000 := by decide

/-- H9 and H10 of the test vectors, with S1's third record at the front. -/
theorem test_logRead :
    let s := { State.reset with cl := { Client.reset with log := [⟨3, 283, 274, 283, true⟩] } }
    answerOf (exec (.logRead 0 1) s) = some 0x000000011B ∧ answerOf (exec (.logRead 1 0) s) = some 0x0E00000000 ∧
      answerOf (exec (.logRead 0 5) s) = some 0x0E00000000 := by decide

/-- K14, and K1 after reset. -/
theorem test_crc16 :
    (after (exec (.crc16Update 0x31) State.reset)).map (·.engine.crc16) = some 0xC782 ∧
      answerOf (exec .crc16Read State.reset) = some 0x000000FFFF := by decide

/-- K15, and K7 after reset. -/
theorem test_crc32 :
    (after (exec (.crc32Update 0x31) State.reset)).map (·.engine.crc32) = some 0x7C231048 ∧
      answerOf (exec .crc32Read State.reset) = some 0x0000000000 := by decide

theorem test_crc_init :
    let s := { State.reset with engine := ⟨0x29B1, 0x340BC6D9⟩ }
    (after (exec .crc16Init s)).map (·.engine) = some ⟨0xFFFF, 0x340BC6D9⟩ ∧
      (after (exec .crc32Init s)).map (·.engine) = some ⟨0x29B1, 0xFFFFFFFF⟩ := by decide

/-- The example of R165, and the 1024th and 1025th push (R165). -/
theorem test_txbufPush :
    answerOf (exec (.txbufPush 0x7E) State.reset) = some 0x0000000001 ∧
      answerOf (exec (.txbufPush 0) { State.reset with txLen := 1023 }) = some 0x0000000400 ∧
      answerOf (exec (.txbufPush 0) { State.reset with txLen := 1024 }) = some 0x0000000401 := by decide

theorem test_txbufClear : (after (exec .txbufClear { State.reset with txLen := 5 })).map (·.txLen) = some 0 := by decide

/-- E2 and E16 of the test vectors. -/
theorem test_encFrame :
    let s := { writeBuffer .txbuf 0 [1, 2, 3] State.reset with txLen := 3 }
    let o := exec .encFrame { s with link := { Link.fresh with writeAnswers := [.accepted 9] } }
    let o' := exec .encFrame { s with link := { Link.fresh with writeAnswers := [.accepted 4] } }
    answerOf o = some 0x0000000009 ∧
      (after o).map (·.link.tx) = some [0x7E, 0x00, 0x03, 0x01, 0x02, 0x03, 0xEB, 0xE1, 0x7F] ∧
      answerOf o' = some 0x0100000004 ∧ (after o').map (·.link.tx) = some [0x7E, 0x00, 0x03, 0x01] := by decide +kernel

theorem test_decStart :
    (after (exec .decStart State.reset)).map (fun t => (t.dec.state, t.progress)) = some (.syncing, .decode) ∧
      answerOf (exec .decStart { State.reset with dec := decoderIn .complete }) = some 0x0E00000000 := by decide

theorem test_decReset :
    (after (exec .decReset { State.reset with dec := { decoderIn .failed with err := .frameCrcMismatch } })).map
      (·.dec) = some Decoder.reset := by decide

/-- D1's last byte: the frame is complete and `DEC.START` answers its length. -/
theorem test_rxByte_end :
    let s := withRxbuf .readingEnd [1, 2, 3] State.reset
    answerOf (exec (.rxByte 0x7F) { s with progress := .decode, dec := { s.dec with lenb1 := 3, crc := 0xEBE1 } }) =
      some 0x0000000003 := by decide +kernel

/-- D14: a doubled start byte is read as a length byte, and 0x7E00 is too long. -/
theorem test_rxByte_length :
    (after (exec (.rxByte 0x00) (receiving { decoderIn .readingLength with lenb0 := 0x7E, idx := true }))).map
      (fun t => (t.dec.len, t.dec.err)) = some (32256, .frameLengthInvalid) := by decide

/-- D12: the timeout's answer carries the count of discarded bytes. -/
theorem test_rxTimeout :
    answerOf (exec .rxTimeout (receiving { decoderIn .syncing with discard := 5 })) = some 0x0200000005 ∧
      answerOf (exec .rxTimeout (receiving { decoderIn .readingLength with discard := 5 })) = some 0x0300000000 := by
  decide

/-- D15 and D27. -/
theorem test_rxError_and_abort :
    answerOf (exec .rxError (receiving (decoderIn .readingLength))) = some 0x0100000000 ∧
      answerOf (exec .sigAbort (receiving (decoderIn .readingLength))) = some 0x0D00000000 := by decide

theorem test_clOpen :
    let s := { State.reset with link := { Link.fresh with openAnswers := [.opened] } }
    (after (exec .clOpen s)).map (·.cl.state) = some .connected ∧ answerOf (exec .clOpen s) = some 0x0000000000 ∧
      answerOf (exec .clOpen (client .connected)) = some 0x0E00000000 := by decide

theorem test_clClose :
    (after (exec .clClose (client .verified))).map (fun t => (t.cl.state, t.link.calls)) =
      some (.disconnected, [.linkClose]) := by decide

/-- The first frame of program P5. -/
theorem test_clHandshake :
    (after (exec .clHandshake (client .connected))).map (·.link.tx) =
      some [0x7E, 0x00, 0x0B, 0x08, 0x01, 0x10, 0x01, 0x1A, 0x05, 0x08, 0x01, 0x10, 0x80, 0x08, 0xC5, 0x83, 0x7F] := by
  decide +kernel

/-- The second frame of program P5. -/
theorem test_clPrepare :
    (after (exec (.clPrepare 256) (client .handshakeDone))).map (·.link.tx) =
      some [0x7E, 0x00, 0x0B, 0x08, 0x02, 0x10, 0x01, 0x22, 0x05, 0x08, 0x80, 0x02, 0x10, 0x00, 0xA1, 0x00, 0x7F] := by
  decide +kernel

/-- The third frame of S14. -/
theorem test_clTransfer :
    (after (exec .clTransfer (client .prepared))).map (·.link.tx) =
      some [0x7E, 0x00, 0x0C, 0x08, 0x03, 0x10, 0x01, 0x2A, 0x06, 0x08, 0x00, 0x12, 0x00, 0x18, 0x00, 0x81, 0x1C,
        0x7F] := by decide +kernel

/-- The fourth frame of S14. -/
theorem test_clVerify :
    (after (exec .clVerify (client .dataSent))).map (·.link.tx) =
      some [0x7E, 0x00, 0x0A, 0x08, 0x04, 0x10, 0x01, 0x22, 0x04, 0x08, 0x00, 0x10, 0x01, 0x74, 0x6A, 0x7F] := by
  decide +kernel

/-- S16: more data than `DATA_MAX` was staged. -/
theorem test_clRunSession :
    answerOf (exec .clRunSession { client .connected with dbufLen := 1025 }) = some 0x0C00000003 ∧
      (after (exec .clRunSession (client .connected))).map (·.progress) = some (.exchange .handshake true 1) := by
  decide +kernel

/-- A short write in the last phase of a session, as in S12, and more data than `DATA_MAX` when its transfer starts (R267). -/
theorem test_session_phases :
    ((afterEvent { answered .transfer true (m8 3) with link := { Link.fresh with writeAnswers := [.accepted 15] } }).port.resp,
        (afterEvent { answered .prepare true (m8 2) with dbufLen := 1025 }).port.resp) =
      ([0x0100000004], [0x0C00000003]) := by decide +kernel

/-- The examples of R254 and R255. -/
theorem test_dbuf :
    (after (exec .dbufClear { State.reset with dbufLen := 256 })).map (·.dbufLen) = some 0 ∧
      answerOf (exec (.dbufPush 0) State.reset) = some 0x0000000001 := by decide

/-- Z1: `CRC16` and `CL_STATE` after a reset. -/
theorem test_sigReset :
    (after (exec .sigReset { client .verified with engine := ⟨0x29B1, 0⟩ })).map (fun t => (t.engine.crc16, t.cl.state)) =
      some (0xFFFF, .disconnected) := by decide

/-- M7, M10 and M11: a message, no message, a message with a byte too many. -/
theorem test_refMsgDec :
    refMsgDec 1 m7 = some ⟨1, 0, .handshakeResponse [0x31, 0x2E, 0x30] 1 2048⟩ ∧ refMsgDec 1 [0xFF, 0xFF] = none ∧
      refMsgDec 1 (m7 ++ [0x00]) = none := by decide

/-! ## Witnesses: for each obligation with hypotheses, a state and operands that meet them, clause by clause -/

/-- No call of the client states' link is cut by a reset. -/
theorem noReset_client (c : ClState) : noResetDuringCall (client c) :=
  ⟨fun _ h => (by cases h), by show OpenAnswer.opened ≠ .resetDuring; decide,
    by show CloseAnswer.closed ≠ .resetDuring; decide⟩

theorem witness_CommandWordBitsUsed :
    decodeCmd 0x03AB120402 = .ok (.logRead 2 4) ∧
      (0x0300FF0402 : CmdWord) &&& usedBits (.logRead 2 4) = 0x03AB120402 &&& usedBits (.logRead 2 4) := by decide

/-- The first and the last opcode of each range of R106, in a state ready for a command. -/
theorem witness_ReservedOpcodesRefused :
    (∀ op ∈ [0x04, 0x0F, 0x13, 0x17, 0x1B, 0x1F, 0x23, 0x2F, 0x32, 0x3F, 0x47, 0x4A, 0xFF], reservedOpcode op) ∧
      (opField 0x4A00000001).toNat = 0x4A ∧ State.reset.progress = .idle ∧ State.reset.dec.state.reading = false ∧
      (State.reset.port.wires.headD 0).getLsbD 0 = false := by
  unfold reservedOpcode
  decide

theorem witness_ReceiveEventsTakenOneByOne :
    (0x0FF : RxSymbol).getLsbD 8 = false ∧ 0x102 ≤ (0x102 : RxSymbol).toNat ∧ 0x102 ≤ (0x1FF : RxSymbol).toNat ∧
      ∃ t, step { receiving (decoderIn .syncing) with link := { Link.fresh with rx := [0x07E, 0x100] } } = .next t ∧
        t.link.rx = [0x100] := by
  refine ⟨by decide, by decide, by decide, _, rfl, rfl⟩

theorem witness_StepRunsDecodedInput :
    (let s : State := { State.reset with port := { Ports.fresh with cmd := [0x4000000000], wires := [2] } };
      s.progress = .idle ∧ s.dec.state.reading = false ∧ (s.port.wires.headD 0).getLsbD 0 = false ∧
        s.port.cmd = [0x4000000000] ∧ decodeCmd 0x4000000000 = .ok .clOpen) ∧
    (let s : State := { receiving (decoderIn .readingEnd) with link := { Link.fresh with rx := [0x101] } };
      s.dec.state.reading = true ∧ s.port.wires.headD 0 = 0 ∧ s.link.rx = [0x101] ∧ decodeRx 0x101 = .ok .rxError) ∧
    (∀ w ∈ ([1, 3] : List WireSample),
      (({ State.reset with port := { Ports.fresh with wires := [w] } } : State).port.wires.headD 0).getLsbD 0 = true) ∧
    (let s : State := { receiving (decoderIn .syncing) with port := { Ports.fresh with wires := [2] } };
      s.dec.state.reading = true ∧ s.port.wires.headD 0 = 2) := by decide

theorem witness_BlockWaitsWhileBusy :
    (let s : State := { receiving (decoderIn .syncing) with port := { Ports.fresh with cmd := [0] } };
      isCommand .nop = true ∧ s.progress ≠ .idle ∧ s.dec.state.reading = true ∧ s.port.wires.headD 0 = 0 ∧
        s.link.rx = [] ∧ ∃ t, step s = .next t ∧ t.port.cmd = [0]) ∧
    (let s : State := receiving (decoderIn .complete);
      s.dec.state.reading = false ∧ (s.port.wires.headD 0).getLsbD 0 = false ∧ s.progress ≠ .idle) ∧
    (State.reset.dec.state.reading = false ∧ (State.reset.port.wires.headD 0).getLsbD 0 = false ∧
      State.reset.port.cmd = []) := by
  refine ⟨⟨rfl, by decide, rfl, rfl, rfl, _, rfl, rfl⟩, by decide, by decide⟩

/-- The stop of a step, and a step that goes on. -/
theorem witness_OperationsNeverStop :
    step { receiving (decoderIn .syncing) with link := { Link.fresh with rx := [0x102] } } =
        .fault .reservedReceiveSymbol ∧
      ∃ t, step State.reset = .next t := ⟨rfl, _, rfl⟩

theorem witness_ResponseOfACommand : State.reset.progress = .idle := rfl

theorem witness_AtMostOneResponse :
    ∃ t, step { State.reset with port := { Ports.fresh with cmd := [0x0100000018] } } = .next t ∧
      t.port.resp = [responseWord .cmdRefused 0] := ⟨_, rfl, rfl⟩

/-- A state in which RXBUF holds three bytes. -/
def decoded : State := withRxbuf .complete [1, 2, 3] State.reset

/-- A state with one log record. -/
def logged : State := { State.reset with cl := { Client.reset with log := [⟨1, 17, 11, 17, true⟩] } }

/-- The commands that can be refused, on both sides of the boundary. -/
theorem witness_RefusedCommandsChangeNothing :
    decoded.progress = .idle ∧ isCommand (.rd 0x18) = true ∧
      refusedIn decoded (.rd 0x18) ∧ ¬ refusedIn decoded (.rd 0x17) ∧
      refusedIn decoded (.bufRead 5 0) ∧ refusedIn decoded (.bufRead 0 3) ∧ ¬ refusedIn decoded (.bufRead 0 2) ∧
      refusedIn decoded (.bufRead 4 0) ∧ refusedIn logged (.logRead 1 0) ∧ ¬ refusedIn logged (.logRead 0 4) ∧
      refusedIn logged (.logRead 0 5) ∧ refusedIn decoded .decStart ∧ ¬ refusedIn State.reset .decStart ∧
      ¬ refusedIn State.reset .clOpen ∧ refusedIn (client .connected) .clOpen ∧
      refusedIn State.reset .clHandshake ∧ ¬ refusedIn (client .connected) .clHandshake ∧
      refusedIn State.reset .clRunSession ∧ ¬ refusedIn (client .connected) .clRunSession ∧
      refusedIn State.reset (.clPrepare 1) ∧ ¬ refusedIn (client .handshakeDone) (.clPrepare 1) ∧
      refusedIn State.reset .clTransfer ∧ ¬ refusedIn (client .prepared) .clTransfer ∧
      refusedIn State.reset .clVerify ∧ ¬ refusedIn (client .dataSent) .clVerify ∧ ¬ refusedIn State.reset .nop := by
  simp only [refusedIn]
  and_intros <;> decide

theorem witness_RegisterRead :
    State.reset.progress = .idle ∧ (readRegister State.reset 0x17).isSome ∧ readRegister State.reset 0x18 = none := by
  decide

/-- A state in which every buffer holds valid bytes. -/
def filled : State :=
  { withRxbuf .complete [1] State.reset with
    txLen := 1025, dbufLen := 1025, cl := { Client.reset with bootverLen := 1, ackmsgLen := 1024 } }

/-- For each buffer the last valid index and the first one that is not. -/
theorem witness_BufferRead :
    filled.progress = .idle ∧
      (¬ refusedIn filled (.bufRead (BitVec.ofNat 8 Space.rxbuf.id) 0) ∧ refusedIn filled (.bufRead 0 1)) ∧
      (¬ refusedIn filled (.bufRead (BitVec.ofNat 8 Space.txbuf.id) 1023) ∧ refusedIn filled (.bufRead 1 1024)) ∧
      (¬ refusedIn filled (.bufRead (BitVec.ofNat 8 Space.dbuf.id) 1023) ∧ refusedIn filled (.bufRead 2 1024)) ∧
      (¬ refusedIn filled (.bufRead (BitVec.ofNat 8 Space.bootver.id) 0) ∧ refusedIn filled (.bufRead 3 1)) ∧
      (¬ refusedIn filled (.bufRead (BitVec.ofNat 8 Space.ackmsg.id) 1023) ∧ refusedIn filled (.bufRead 4 1024)) ∧
      refusedIn filled (.bufRead 5 0) ∧ refusedIn filled (.bufRead 255 0) ∧
      filled.mem.readAt (Memory.addr .rxbuf 0) = some 1 := by
  simp only [refusedIn]
  and_intros <;> decide

theorem witness_LogRead :
    let s := { State.reset with cl := { Client.reset with log := [⟨1, 17, 11, 17, true⟩] } }
    s.progress = .idle ∧ s.cl.log.length ≤ (1 : BitVec 8).toNat ∧ 4 < (5 : BitVec 8).toNat ∧
      s.cl.log[(0 : BitVec 8).toNat]? = some ⟨1, 17, 11, 17, true⟩ := by decide

theorem witness_CrcInitAndRead : State.reset.progress = .idle := rfl
theorem witness_Crc16Update : State.reset.progress = .idle := rfl
theorem witness_Crc32Update : State.reset.progress = .idle := rfl

theorem witness_ChecksumRegistersUntouched :
    (isChecksum .encFrame = false ∧ Instr.encFrame ≠ .sigReset ∧ noResetDuringCall (client .connected) ∧
      ∃ t, exec .encFrame (client .connected) = .next t) ∧
    (∃ t, exec .crc16Read State.reset = .next t) ∧ (∃ t, exec .crc32Read State.reset = .next t) ∧
    (∃ t, exec .crc16Init State.reset = .next t) ∧ (∃ t, exec (.crc16Update 0) State.reset = .next t) ∧
    (∃ t, exec .crc32Init State.reset = .next t) ∧ ∃ t, exec (.crc32Update 0) State.reset = .next t := by
  exact ⟨⟨rfl, by decide, noReset_client _, _, rfl⟩, ⟨_, rfl⟩, ⟨_, rfl⟩, ⟨_, rfl⟩, ⟨_, rfl⟩, ⟨_, rfl⟩, ⟨_, rfl⟩⟩

theorem witness_EscapeProperties : (escape [0x01, 0x7E])[1]? = some 0x7D := by decide

theorem witness_UnescapeIsStrictInverse :
    unescape [0x7D, 0x5E] = some [0x7E] ∧ (0x7C : Byte) ≠ 0x7D ∧ (0x7C : Byte) ≠ 0x7E ∧ (0x7C : Byte) ≠ 0x7F ∧
      (0x7D : Byte) ≠ 0x5E ∧ (0x7D : Byte) ≠ 0x5F ∧ (0x7D : Byte) ≠ 0x5D := by decide

/-- Both sides of the boundary of 1024 bytes. -/
theorem witness_FrameLayout :
    1024 < (List.replicate 1025 (0 : Byte)).length ∧ (List.replicate 1024 (0x7E : Byte)).length ≤ 1024 := by
  simp only [List.length_replicate]; decide

theorem witness_TxbufCommands :
    ({ State.reset with txLen := 1023 } : State).progress = .idle ∧
      ({ State.reset with txLen := 1023 } : State).txLen.toNat < 1024 ∧
      1024 ≤ ({ State.reset with txLen := 1024 } : State).txLen.toNat := by decide

/-- An empty payload, whose frame has 6 bytes, with a failed, a short and a whole write; and a payload too long. -/
theorem witness_EncodeFrame :
    1024 < ({ State.reset with txLen := 1025 } : State).txLen.toNat ∧
    State.reset.progress = .idle ∧ State.reset.txLen.toNat ≤ 1024 ∧
      frameEncode (bufferBytes State.reset .txbuf State.reset.txLen.toNat) =
        some [0x7E, 0x00, 0x00, 0x1D, 0x0F, 0x7F] ∧
      nextWriteAnswer { Link.fresh with writeAnswers := [.transportError] } = .transportError ∧
      nextWriteAnswer { Link.fresh with writeAnswers := [.accepted 5] } = .accepted 5 ∧
      nextWriteAnswer { Link.fresh with writeAnswers := [.accepted 6] } = .accepted 6 := by decide +kernel

theorem witness_DecoderStart :
    State.reset.progress = .idle ∧ State.reset.dec.state = .idle ∧
      ({ State.reset with dec := decoderIn .failed } : State).dec.state ≠ .idle := by decide

theorem witness_DecodeCommandAnswered :
    (receiving (decoderIn .readingEnd)).dec.state.reading = true ∧
      (receiving (decoderIn .complete)).progress = .decode ∧ (receiving (decoderIn .complete)).dec.state = .complete ∧
      (receiving { decoderIn .failed with err := .frameSyncTimeout }).dec.err = .frameSyncTimeout ∧
      (receiving { decoderIn .failed with err := .interrupted }).dec.err ≠ .frameSyncTimeout := by decide

theorem witness_DecoderReset : ({ State.reset with dec := decoderIn .failed } : State).progress = .idle := rfl

theorem witness_ByteInSyncing : (receiving (decoderIn .syncing)).dec.state = .syncing := rfl

/-- The second length byte with the lengths 0, 1024 and 1025. -/
theorem witness_ByteInReadingLength :
    (receiving (decoderIn .readingLength)).dec.state = .readingLength ∧
      (receiving (decoderIn .readingLength)).dec.idx = false ∧
      (receiving { decoderIn .readingLength with lenb0 := 0x04, idx := true }).dec.idx = true ∧
      256 * (0x00 : Byte).toNat + (0x00 : Byte).toNat = 0 ∧ 256 * (0x04 : Byte).toNat + (0x00 : Byte).toNat = 1024 ∧
      256 * (0x04 : Byte).toNat + (0x01 : Byte).toNat = 1025 := by decide

/-- The four clauses, with the three escaped bytes and their neighbours 0x7C and 0x5C; the last byte of a field, and one
before it. -/
theorem witness_ByteInReadingPayload :
    let s (e : Bool) (n : BitVec 16) := receiving { decoderIn .readingPayload with len := n, esc := e }
    (s false 1).dec.state = .readingPayload ∧ (s false 1).dec.esc = false ∧ (s true 1).dec.esc = true ∧
      ((0x5C : Byte) ≠ 0x5E ∧ (0x5C : Byte) ≠ 0x5F ∧ (0x5C : Byte) ≠ 0x5D) ∧
      ((0x7C : Byte) ≠ 0x7D ∧ (0x7C : Byte) ≠ 0x7E ∧ (0x7C : Byte) ≠ 0x7F) ∧
      ((0x5E : Byte) ^^^ 0x20 = 0x7E ∧ (0x5F : Byte) ^^^ 0x20 = 0x7F ∧ (0x5D : Byte) ^^^ 0x20 = 0x7D) ∧
      ((s false 1).dec.cnt + 1).toNat = (s false 1).dec.len.toNat ∧
      ((s false 2).dec.cnt + 1).toNat ≠ (s false 2).dec.len.toNat := by decide

theorem witness_ByteInReadingCrc : (receiving (decoderIn .readingCrc)).dec.state = .readingCrc := rfl
theorem witness_ByteInReadingEnd : (receiving (decoderIn .readingEnd)).dec.state = .readingEnd := rfl

theorem witness_TimeoutErrorAndAbort :
    (receiving (decoderIn .syncing)).dec.state.reading = true ∧
      (receiving (decoderIn .readingEnd)).dec.state.reading = true ∧ State.reset.dec.state.reading = false := by decide

theorem witness_DecoderTransitions :
    let s := receiving (decoderIn .syncing)
    isPhaseCommand (.rxByte 0x7E) = false ∧ (∀ p b k, s.progress ≠ .exchange p b k) ∧
      (isCommand (.rxByte 0x7E) = true → s.dec.state.reading = false) ∧
      noResetDuringCall { s with link := (client .connected).link } ∧
      ∃ t, exec (.rxByte 0x7E) s = .next t ∧ t.dec.state = .readingLength := by
  refine ⟨rfl, ?_, by decide, noReset_client .connected, _, rfl, rfl⟩
  intro p b k h
  cases h

/-- D3 of the test vectors. -/
theorem witness_FrameDecodedAfterGarbage :
    (let s : State := { State.reset with
      port := { Ports.fresh with cmd := [0x3000000000] }
      link := { Link.fresh with
        rx := byteSymbols ([0x00, 0xFF, 0x55] ++ [0x7E, 0x00, 0x03, 0x01, 0x02, 0x03, 0xEB, 0xE1, 0x7F]) ++ [0x100] } };
    s.progress = .idle ∧ s.dec.state = .idle ∧ s.port.wires = [] ∧ s.port.cmd = [0x3000000000] ∧
      decodeCmd 0x3000000000 = .ok .decStart) ∧
    (0x7E : Byte) ∉ ([0x00, 0xFF, 0x55] : List Byte) ∧
    frameEncode [0x01, 0x02, 0x03] = some [0x7E, 0x00, 0x03, 0x01, 0x02, 0x03, 0xEB, 0xE1, 0x7F] := by decide +kernel

/-- D5 of the test vectors. -/
theorem witness_CorruptedCrcRejected :
    let p : List Byte := [0x01, 0x02, 0x03]
    p.length ≤ 1024 ∧ (0xEAE1 : BitVec 16) ≠ crc16Ccitt (be16 (BitVec.ofNat 16 p.length) ++ p) ∧
      [0x7E] ++ be16 (BitVec.ofNat 16 p.length) ++ escape p ++ be16 0xEAE1 ++ [0x7F] =
        ([0x7E, 0x00, 0x03, 0x01, 0x02, 0x03, 0xEA, 0xE1, 0x7F] : List Byte) ∧
      State.reset.progress = .idle ∧ State.reset.dec.state = .idle ∧ State.reset.port.wires = [] ∧
      decodeCmd 0x3000000000 = .ok .decStart := by decide +kernel

/-- At the largest count: the next byte leaves it as it is. -/
theorem witness_SearchGoesOn :
    let s := { receiving { decoderIn .syncing with discard := 0xFFFFFFFF } with
      link := { Link.fresh with rx := byteSymbols [0x7F, 0x7D] } }
    s.dec.state = .syncing ∧ s.port.wires = [] ∧ (0x7E : Byte) ∉ ([0x7F, 0x7D] : List Byte) ∧
      s.link.rx = byteSymbols [0x7F, 0x7D] ++ [] := by decide

theorem witness_ReferenceDecoderIsStrictInverse :
    m7.length < 2 ^ 32 ∧ (refMsgDec 1 m7).isSome ∧ Params.default.codec = .reference ∧ m7.length ≤ 1024 ∧
      (msgDec Params.default m7).isSome := by decide

/-- The reference codec needs no premise. -/
theorem openCodecHasLaws_default : OpenCodecHasLaws Params.default := fun h => by cases h

theorem witness_ReferenceEncoderLaws :
    (refMsgEnc 1 ⟨2, .prepare 256 false⟩).length < 2 ^ 32 ∧
      refMsgEnc 1 ⟨2, .prepare 256 false⟩ = [0x08, 0x02, 0x10, 0x01, 0x22, 0x05, 0x08, 0x80, 0x02, 0x10, 0x00] ∧
      Params.default.codec = .reference ∧ Params.default.wf ∧ OpenCodecHasLaws Params.default ∧
      requestTyped Params.default ⟨3, .dataPacket 0 [0x7E] 0⟩ ∧
      (frameEncode (msgEnc Params.default ⟨3, .dataPacket 0 [0x7E] 0⟩)).isSome :=
  ⟨by decide, by decide, rfl, by decide, openCodecHasLaws_default, by show 1 ≤ 1024; decide, by decide⟩

theorem witness_ReferenceByteLayout : 0xFFFFFFFF < 2 ^ 32 ∧ 2 < 8 ∧ ([0x80, 0x01] : List Byte) ≠ [] := by decide

theorem witness_DbufCommands :
    ({ State.reset with dbufLen := 1023 } : State).progress = .idle ∧
      ({ State.reset with dbufLen := 1023 } : State).dbufLen.toNat < State.reset.params.dataMax ∧
      State.reset.params.dataMax ≤ ({ State.reset with dbufLen := 1024 } : State).dbufLen.toNat ∧
      State.reset.params.wf := by decide

theorem witness_ClientOpenAndClose :
    State.reset.progress = .idle ∧ State.reset.cl.state = .disconnected ∧
      nextOpenAnswer { Link.fresh with openAnswers := [.opened] } = .opened ∧
      nextOpenAnswer { Link.fresh with openAnswers := [.transportError] } = .transportError ∧
      (client .connected).progress = .idle ∧ (client .connected).cl.state ≠ .disconnected ∧
      nextCloseAnswer (client .connected).link = .closed := by decide

/-- For each of the five phase commands: its state, a message that fits, a write of the whole frame. -/
theorem witness_PhaseCommandsSendTheirRequest :
    let fits (m : List Byte) := m.length ≤ 1024 ∧ (frameBytes m).length ≤ 3000
    (∀ c, (client c).progress = .idle ∧ nextWriteAnswer (client c).link = .accepted 3000 ∧ (client c).cl.state = c ∧
      (client c).dbufLen.toNat ≤ (client c).params.dataMax) ∧
      fits (msgEnc Params.default ⟨1, .handshake 1 1024⟩) ∧ fits (msgEnc Params.default ⟨2, .prepare 0xFFFFFFFF false⟩) ∧
      fits (msgEnc Params.default ⟨3, .dataPacket 0 [] 0⟩) ∧ fits (msgEnc Params.default ⟨4, .prepare 0 true⟩) := by
  refine ⟨fun c => ⟨rfl, rfl, rfl, by show 0 ≤ 1024; decide⟩, ?_⟩
  decide +kernel

/-- An exchange of a session whose response frame is complete, with `n` bytes of data announced, and a link. -/
def sessionAt (p : Phase) (m : List Byte) (n : Word) (l : Link) : State :=
  { answered p true m with dbufLen := n, link := l }

/-- A link with one answer to the next write. -/
def writing (a : TxAnswer) : Link := { Link.fresh with writeAnswers := [a] }

/-- The prepare phase of a session starts. -/
theorem starts_prepare (l : Link) :
    ∃ u, SessionStarts (sessionAt .handshake m7 0 l) .prepare ⟨2, .prepare 0 false⟩ u :=
  ⟨_, .prepare 1 0 1 2048 [0x31, 0x2E, 0x30] rfl rfl (by show msgDec Params.default m7 = _; decide)⟩

/-- The transfer phase of a session starts, with no data. -/
theorem starts_transfer (l : Link) :
    ∃ u, SessionStarts (sessionAt .prepare (m8 2) 0 l) .transfer ⟨3, .dataPacket 0 [] 0⟩ u := by
  have h := SessionStarts.transfer (s := sessionAt .prepare (m8 2) 0 l) 1 0 [0x4F, 0x4B] rfl rfl
    (by show msgDec Params.default (m8 2) = _; decide) (by show 0 ≤ 1024; decide)
  have hd : stagedData (acknowledged .prepared 0 [0x4F, 0x4B] (sessionAt .prepare (m8 2) 0 l)) = [] := rfl
  have hc : crc32Bootloader [] = 0 := by decide
  rw [hd, hc] at h
  exact ⟨_, h⟩

/-- The verify phase of a session starts. -/
theorem starts_verify (l : Link) :
    ∃ u, SessionStarts (sessionAt .transfer (m8 3) 0 l) .verify ⟨4, .prepare 0 true⟩ u :=
  ⟨_, .verify 1 0 [0x4F, 0x4B] rfl rfl (by show msgDec Params.default (m8 3) = _; decide)⟩

/-- The transfer phase of a session with 1024 bytes of data: its message is longer than a payload may be. -/
theorem starts_transfer_full (l : Link) :
    ∃ r u, SessionStarts (sessionAt .prepare (m8 2) 1024 l) .transfer r u ∧
      1024 < (msgEnc Params.default r).length := by
  refine ⟨_, _, .transfer 1 0 [0x4F, 0x4B] rfl rfl (by show msgDec Params.default (m8 2) = _; decide)
    (by show 1024 ≤ 1024; decide), ?_⟩
  have h : (tag 5 2).length = 1 := by decide
  have h' (s : State) (hs : s.dbufLen = 1024) : (stagedData s).length = 1024 := by simp [stagedData, hs]
  simp only [msgEnc, Params.default, refMsgEnc, requestBodyBytes, fieldBytes, List.length_append, h]
  rw [h' _ rfl]
  omega

/-- One byte more than `DATA_MAX`, and `DATA_MAX` bytes of data, with which the message has more than 1024 bytes: for the
commands, and inside a session. -/
theorem witness_OverlongDataIsNotSent :
    (∀ c, ({ client c with dbufLen := 1025 } : State).progress = .idle ∧
      (client c).params.dataMax < ({ client c with dbufLen := 1025 } : State).dbufLen.toNat) ∧
    (client .prepared).cl.state = .prepared ∧ (client .connected).cl.state = .connected ∧
    (∃ r, phaseRequest { client .prepared with dbufLen := 1024 } .clTransfer = some (.transfer, false, r) ∧
      1024 < (msgEnc Params.default r).length) ∧
    (∃ r u, SessionStarts (sessionAt .prepare (m8 2) 1024 Link.fresh) .transfer r u ∧
      1024 < (msgEnc Params.default r).length) ∧
    (sessionAt .prepare (m8 2) 1025 Link.fresh).progress = .exchange .prepare true 1 ∧
    (sessionAt .prepare (m8 2) 1025 Link.fresh).dec.state = .complete ∧
    msgDec Params.default (bufferBytes (sessionAt .prepare (m8 2) 1025 Link.fresh) .rxbuf 14) =
      some ⟨2, 0, .ack true [0x4F, 0x4B]⟩ ∧
    Params.default.dataMax < (sessionAt .prepare (m8 2) 1025 Link.fresh).dbufLen.toNat ∧
    OpenCodecHasLaws Params.default ∧ 1024 ≤ (sessionAt .prepare (m8 2) 1024 Link.fresh).dbufLen.toNat := by
  refine ⟨fun c => ⟨rfl, by show 1024 < 1025; decide⟩, rfl, rfl, ⟨_, rfl, ?_⟩, starts_transfer_full _, rfl, rfl, by decide,
    by decide, openCodecHasLaws_default, by decide⟩
  have h : (tag 5 2).length = 1 := by decide
  have h' (s : State) (hs : s.dbufLen = 1024) : (stagedData s).length = 1024 := by simp [stagedData, hs]
  simp only [msgEnc, Params.default, refMsgEnc, requestBodyBytes, fieldBytes, List.length_append, h, h']
  omega

/-- A phase command of each kind and a later phase of a session of each kind, with a failed and a short write. -/
theorem witness_FailedWriteEndsThePhase :
    (∀ c, (client c).progress = .idle) ∧
    (∃ r, phaseRequest (client .connected) .clHandshake = some (.handshake, false, r)) ∧
    (∃ r, phaseRequest (client .handshakeDone) (.clPrepare 1) = some (.prepare, false, r)) ∧
    (∃ r, phaseRequest (client .prepared) .clTransfer = some (.transfer, false, r)) ∧
    (∃ r, phaseRequest (client .dataSent) .clVerify = some (.verify, false, r)) ∧
    (∃ r, phaseRequest (client .connected) .clRunSession = some (.handshake, true, r)) ∧
    (∀ l, (∃ u, SessionStarts (sessionAt .handshake m7 0 l) .prepare ⟨2, .prepare 0 false⟩ u) ∧
      (∃ u, SessionStarts (sessionAt .prepare (m8 2) 0 l) .transfer ⟨3, .dataPacket 0 [] 0⟩ u) ∧
      ∃ u, SessionStarts (sessionAt .transfer (m8 3) 0 l) .verify ⟨4, .prepare 0 true⟩ u) ∧
    (∀ r ∈ [⟨1, .handshake 1 1024⟩, ⟨2, .prepare 0 false⟩, ⟨3, .dataPacket 0 [] 0⟩, ⟨4, .prepare 0 true⟩],
      (frameEncode (msgEnc Params.default r)).map (fun f => decide (15 < f.length)) = some true) ∧
    nextWriteAnswer (writing (.accepted 15)) = .accepted 15 ∧
    nextWriteAnswer (writing .transportError) = .transportError := by
  refine ⟨fun _ => rfl, ⟨_, rfl⟩, ⟨_, rfl⟩, ⟨_, rfl⟩, ⟨_, rfl⟩, ⟨_, rfl⟩,
    fun l => ⟨starts_prepare l, starts_transfer l, starts_verify l⟩, ?_, rfl, rfl⟩
  decide +kernel

/-- An attempt that ends the exchange by its error, one that is the last, and one that is followed by another. -/
theorem witness_RetryPolicy :
    let s (e : ErrKind) (n : Nat) : State :=
      { State.reset with
        dec := { decoderIn .failed with err := e }
        progress := .exchange .prepare true 1
        params := { Params.default with rxAttempts := n } }
    (s .interrupted 2).progress = .exchange .prepare true 1 ∧ (s .interrupted 2).dec.state = .failed ∧
      (s .interrupted 2).dec.err = .interrupted ∧ (s .transportError 2).dec.err = .transportError ∧
      1 = (s .frameCrcMismatch 1).params.rxAttempts ∧
      ((s .frameCrcMismatch 2).dec.err ≠ .transportError ∧ (s .frameCrcMismatch 2).dec.err ≠ .interrupted ∧
        1 ≠ (s .frameCrcMismatch 2).params.rxAttempts) := by decide

/-- M10, M9 to a prepare, M8 under another sequence id, an `Ack` true to a handshake, M7 to a prepare. -/
theorem witness_ResponseFailsThePhase :
    let got (s : State) := msgDec s.params (bufferBytes s .rxbuf s.dec.len.toNat)
    (answered .prepare false [0xFF, 0xFF]).progress = .exchange .prepare false 1 ∧
      (answered .prepare false [0xFF, 0xFF]).dec.state = .complete ∧
      got (answered .prepare false [0xFF, 0xFF]) = none ∧
      got (answered .prepare false m9) = some ⟨2, 0, .ack false [0x4E, 0x4F]⟩ ∧
      got (answered .prepare true (m8 3)) = some ⟨3, 0, .ack true [0x4F, 0x4B]⟩ ∧
      got (answered .handshake false (m8 1)) = some ⟨1, 0, .ack true [0x4F, 0x4B]⟩ ∧
      got (answered .prepare false m7) = some ⟨1, 0, .handshakeResponse [0x31, 0x2E, 0x30] 1 2048⟩ := by decide

theorem witness_ResponseCompletesThePhase :
    let got (s : State) := msgDec s.params (bufferBytes s .rxbuf s.dec.len.toNat)
    (∀ p m, (answered p false m).progress = .exchange p false 1 ∧ (answered p false m).dec.state = .complete) ∧
      got (answered .handshake false m7) = some ⟨1, 0, .handshakeResponse [0x31, 0x2E, 0x30] 1 2048⟩ ∧
      got (answered .prepare false (m8 2)) = some ⟨2, 0, .ack true [0x4F, 0x4B]⟩ ∧
      got (answered .transfer false (m8 3)) = some ⟨3, 0, .ack true [0x4F, 0x4B]⟩ ∧
      got (answered .verify false (m8 4)) = some ⟨4, 0, .ack true [0x4F, 0x4B]⟩ := by
  refine ⟨fun _ _ => ⟨rfl, rfl⟩, ?_⟩
  decide

theorem witness_SessionGoesOn :
    (∀ l, (∃ u, SessionStarts (sessionAt .handshake m7 0 l) .prepare ⟨2, .prepare 0 false⟩ u) ∧
      (∃ u, SessionStarts (sessionAt .prepare (m8 2) 0 l) .transfer ⟨3, .dataPacket 0 [] 0⟩ u) ∧
      ∃ u, SessionStarts (sessionAt .transfer (m8 3) 0 l) .verify ⟨4, .prepare 0 true⟩ u) ∧
    (∀ r ∈ [⟨2, .prepare 0 false⟩, ⟨3, .dataPacket 0 [] 0⟩, ⟨4, .prepare 0 true⟩],
      (msgEnc Params.default r).length ≤ 1024 ∧ (frameBytes (msgEnc Params.default r)).length ≤ 3000) ∧
    nextWriteAnswer (writing (.accepted 3000)) = .accepted 3000 ∧
    (answered .verify true (m8 4)).progress = .exchange .verify true 1 ∧
    (answered .verify true (m8 4)).dec.state = .complete ∧
    msgDec Params.default (bufferBytes (answered .verify true (m8 4)) .rxbuf 14) =
      some ⟨4, 0, .ack true [0x4F, 0x4B]⟩ := by
  refine ⟨fun l => ⟨starts_prepare l, starts_transfer l, starts_verify l⟩, ?_, rfl, rfl, rfl, by decide⟩
  decide +kernel

/-- A connected client with two bytes of data, four good responses in the link, each after garbage, and a link that takes
every frame. -/
def sessionState : State where
  engine := Engine.reset
  txLen := 0
  dec := Decoder.reset
  dbufLen := 2
  cl := { Client.reset with state := .connected }
  lastErr := .none
  progress := .idle
  mem := [(Memory.addr .dbuf 0, 0x01), (Memory.addr .dbuf 1, 0x02)]
  epoch := 0
  link := { Link.fresh with
    rx := byteSymbols (([0x55] ++ frameBytes m7) ++ ([] ++ frameBytes (m8 2)) ++ ([0x7F] ++ frameBytes (m8 3)) ++
      ([] ++ frameBytes (m8 4))) ++ [0x100]
    writeAnswers := [.accepted 2054, .accepted 2054, .accepted 2054, .accepted 2054] ++ [.transportError]
    closeAnswers := [.closed] }
  port := { Ports.fresh with cmd := [0x4600000000, 0] }
  params := Params.default

/-- The session state meets the invariant. -/
theorem inv_sessionState : Inv sessionState := by
  refine ⟨⟨by decide, by decide, by decide, by decide, by decide, by decide, by decide, by decide, by decide, by decide,
    ?_, ?_, ?_, ?_, rfl⟩, rfl⟩
  · intro i hi; exact absurd hi (by simp [sessionState])
  · intro i hi
    have : i < 2 := hi
    interval_cases i <;> rfl
  · intro i hi; exact absurd hi (by simp [sessionState, Client.reset])
  · intro i hi; exact absurd hi (by simp [sessionState, Client.reset])

theorem witness_ClientTransitions :
    Inv sessionState ∧ ∃ t, exec .clClose sessionState = .next t ∧ t.cl.state ≠ sessionState.cl.state :=
  ⟨inv_sessionState, _, rfl, by decide⟩

/-- Every hypothesis on the session state; the messages of its requests have at most 1024 bytes. -/
theorem witness_FullSession :
    Inv sessionState ∧ sessionState.progress = .idle ∧ sessionState.cl.state = .connected ∧
      sessionState.dbufLen.toNat ≤ sessionState.params.dataMax ∧ sessionState.cl.log = [] ∧
      4 ≤ sessionState.params.logMax ∧ sessionState.port.wires = [] ∧
      sessionState.port.cmd = [0x4600000000, 0] ∧ decodeCmd 0x4600000000 = .ok .clRunSession ∧
      sessionState.link.writeAnswers =
        [.accepted 2054, .accepted 2054, .accepted 2054, .accepted 2054] ++ [.transportError] ∧
      sessionState.link.rx = byteSymbols (([0x55] ++ frameBytes m7) ++ ([] ++ frameBytes (m8 2)) ++
        ([0x7F] ++ frameBytes (m8 3)) ++ ([] ++ frameBytes (m8 4))) ++ [0x100] ∧
      (msgEnc Params.default ⟨1, .handshake 1 1024⟩).length ≤ 1024 ∧
      (msgEnc Params.default ⟨2, .prepare 2 false⟩).length ≤ 1024 ∧
      (msgEnc Params.default ⟨3, .dataPacket 0 (stagedData sessionState) (crc32Bootloader (stagedData sessionState))⟩).length
        ≤ 1024 ∧
      (msgEnc Params.default ⟨4, .prepare 2 true⟩).length ≤ 1024 ∧
      (0x7E : Byte) ∉ ([0x55] : List Byte) ∧ (0x7E : Byte) ∉ ([0x7F] : List Byte) ∧ (0x7E : Byte) ∉ ([] : List Byte) ∧
      frameEncode m7 = some (frameBytes m7) ∧ (∀ q, frameEncode (m8 q) = some (frameBytes (m8 q))) ∧
      msgDec Params.default m7 = some ⟨1, 0, .handshakeResponse [0x31, 0x2E, 0x30] 1 2048⟩ ∧
      msgDec Params.default (m8 2) = some ⟨2, 0, .ack true [0x4F, 0x4B]⟩ ∧
      msgDec Params.default (m8 3) = some ⟨3, 0, .ack true [0x4F, 0x4B]⟩ ∧
      msgDec Params.default (m8 4) = some ⟨4, 0, .ack true [0x4F, 0x4B]⟩ := by
  refine ⟨inv_sessionState, rfl, rfl, by decide, rfl, by decide, rfl, rfl, rfl, rfl, rfl, by decide, by decide, ?_, by decide,
    by decide, by decide, by decide, rfl, fun _ => rfl, by decide, by decide, by decide, by decide⟩
  decide +kernel

theorem witness_ResetDuringACall :
    State.reset.progress = .idle ∧ State.reset.txLen.toNat ≤ 1024 ∧
      (∃ f, frameEncode (bufferBytes State.reset .txbuf State.reset.txLen.toNat) = some f) ∧
      nextWriteAnswer (writing (.resetDuring 0)) = .resetDuring 0 ∧
      nextWriteAnswer (writing (.resetDuring 6)) = .resetDuring 6 ∧
      (∃ r, phaseRequest (client .connected) .clHandshake = some (.handshake, false, r) ∧
        ∃ f, frameEncode (msgEnc (client .connected).params r) = some f) ∧
      (∀ l, ∃ u, SessionStarts (sessionAt .transfer (m8 3) 0 l) .verify ⟨4, .prepare 0 true⟩ u) ∧
      (∃ f, frameEncode (msgEnc Params.default ⟨4, .prepare 0 true⟩) = some f) ∧
      State.reset.cl.state = .disconnected ∧
      nextOpenAnswer { Link.fresh with openAnswers := [.resetDuring] } = .resetDuring ∧
      (client .connected).cl.state ≠ .disconnected ∧
      nextCloseAnswer { Link.fresh with closeAnswers := [.resetDuring] } = .resetDuring :=
  ⟨rfl, by decide, ⟨_, rfl⟩, rfl, rfl, ⟨_, rfl, _, rfl⟩, starts_verify, ⟨_, rfl⟩, rfl, rfl, by decide, rfl⟩

theorem witness_StepKeepsTheInvariant :
    Inv sessionState ∧ ∃ t, step sessionState = .next t ∧ t.progress = .exchange .handshake true 1 :=
  ⟨inv_sessionState, _, rfl, rfl⟩

theorem witness_TransmitStreamOnlyGrows : ∃ t, step sessionState = .next t ∧ t.link.tx ≠ sessionState.link.tx := by
  refine ⟨_, rfl, ?_⟩
  decide +kernel

/-- For each clause an operation that may not write its buffer, and the last index. -/
theorem witness_BuffersWrittenOnlyByTheirOwners :
    Instr.txbufPush 0 ≠ .sigReset ∧ noResetDuringCall (client .connected) ∧ 2 ^ 32 - 1 < 2 ^ 32 ∧
      (∃ t, exec (.txbufPush 0) (client .connected) = .next t) ∧ (∀ b, Instr.txbufPush 0 ≠ .dbufPush b) ∧
      (∃ t, exec (.dbufPush 0) (client .connected) = .next t) ∧ (∀ b, Instr.dbufPush 0 ≠ .txbufPush b) ∧
      isPhaseCommand (.dbufPush 0) = false ∧ (∀ p b a, (client .connected).progress ≠ .exchange p b a) ∧
      (∀ b, Instr.rxTimeout ≠ .rxByte b) ∧ (∃ t, exec .rxTimeout (answered .verify true []) = .next t) ∧
      (answered .verify true []).dec.state ≠ .readingPayload := by
  refine ⟨by decide, noReset_client _, by decide, ⟨_, rfl⟩, ?_, ⟨_, rfl⟩, ?_, rfl, ?_, ?_, ⟨_, rfl⟩, by decide⟩
  · intro b h; cases h
  · intro b h; cases h
  · intro p b a h; cases h
  · intro b h; cases h

end Sys2Proof.Tests
end

section
/-! SUPPORT. What `step` takes from its ports (R3, R24, R65, R330, R350): the reading of a sample of the wires, one equation
of `nextInput` for each operation it can deliver, and from them the statement of the scope family. -/

namespace Sys2Proof.Machine

/-! ## The sample of the wires -/

/-- Bit 0 of a sample is the reset wire, whatever the abort wire says (R350). -/
theorem decodeWires_eq_sigReset_iff (w : WireSample) : decodeWires w = .ok .sigReset ↔ w.getLsbD 0 = true := by
  unfold decodeWires
  split
  · next h => exact iff_of_true rfl h
  · next h =>
    refine iff_of_false ?_ h
    split <;> nofun

/-- Both wires low are no signal. -/
theorem decodeWires_zero : decodeWires 0 = .error .noSignal := rfl

/-- Only the abort wire high. -/
theorem decodeWires_two : decodeWires 2 = .ok .sigAbort := rfl

/-! ## What the ports deliver -/

theorem nextEvent_of_decoded {s : State} {e : RxSymbol} {rest : List RxSymbol} {i : Instr}
    (hrx : s.link.rx = e :: rest) (hi : decodeRx e = .ok i) :
    nextEvent s = .run i { s with link := { s.link with rx := rest } } := by
  simp only [nextEvent, hrx, hi]

theorem nextCommand_of_decoded {s : State} {w : CmdWord} {rest : List CmdWord} {i : Instr}
    (hcmd : s.port.cmd = w :: rest) (hi : decodeCmd w = .ok i) :
    nextCommand s = .run i { s with port := { s.port with cmd := rest } } := by
  simp only [nextCommand, hcmd, hi]

/-- A reset is taken in any state (R350). -/
theorem nextInput_of_sigReset {s : State} (hw : decodeWires (wireSample s) = .ok .sigReset) :
    nextInput s = .run .sigReset (takeWires s) := by
  simp only [nextInput, hw]

/-- In a reading state an abort goes before the read of the link (R330). -/
theorem nextInput_of_sigAbort {s : State} (hw : decodeWires (wireSample s) = .ok .sigAbort)
    (hr : s.dec.state.reading = true) : nextInput s = .run .sigAbort (takeWires s) := by
  simp only [nextInput, hw, hr]

/-- A reading state without a signal reads the link (R65). -/
theorem nextInput_of_reading {s : State} (hw : decodeWires (wireSample s) = .error .noSignal)
    (hr : s.dec.state.reading = true) : nextInput s = nextEvent (takeWires s) := by
  simp only [nextInput, hw, hr]

/-- Outside a reading state and with `BUSY` 0 the command port is read (R24); the abort wire plays no part. -/
theorem nextInput_of_idle {s : State} (hw : decodeWires (wireSample s) ≠ .ok .sigReset)
    (hr : s.dec.state.reading = false) (hb : s.busy = false) : nextInput s = nextCommand (takeWires s) := by
  obtain ⟨hreset, -⟩ | ⟨-, hreading, -⟩ | ⟨-, hreading, -⟩ | ⟨-, -, hbusy, -⟩ | ⟨-, -, -, h⟩ := nextInput_cases s
  · exact absurd hreset hw
  · simp [hr] at hreading
  · simp [hr] at hreading
  · simp [hb] at hbusy
  · exact h

/-! ## The step -/

theorem step_of_run {s t : State} {i : Instr} (h : nextInput s = .run i t) : step s = exec i t := by
  simp only [step, h]

theorem step_runs_command {s : State} {w : CmdWord} {rest : List CmdWord} {i : Instr} (hp : s.progress = .idle)
    (hr : s.dec.state.reading = false) (hw : (s.port.wires.headD 0).getLsbD 0 = false)
    (hcmd : s.port.cmd = w :: rest) (hi : decodeCmd w = .ok i) :
    step s = exec i { s with port := { s.port with cmd := rest, wires := s.port.wires.tail } } := by
  have hno : decodeWires (wireSample s) ≠ .ok .sigReset := fun h =>
    Bool.false_ne_true (hw.symm.trans ((decodeWires_eq_sigReset_iff _).1 h))
  have hin : nextInput s = nextCommand (takeWires s) := nextInput_of_idle hno hr ((busy_eq_false_iff s).2 hp)
  exact step_of_run (hin.trans (nextCommand_of_decoded (s := takeWires s) hcmd hi))

theorem step_runs_event {s : State} {e : RxSymbol} {rest : List RxSymbol} {i : Instr}
    (hr : s.dec.state.reading = true) (hw : s.port.wires.headD 0 = 0) (hrx : s.link.rx = e :: rest)
    (hi : decodeRx e = .ok i) :
    step s = exec i { s with
      link := { s.link with rx := rest }
      port := { s.port with wires := s.port.wires.tail } } := by
  have hno : decodeWires (wireSample s) = .error .noSignal := (congrArg decodeWires hw).trans decodeWires_zero
  exact step_of_run ((nextInput_of_reading hno hr).trans (nextEvent_of_decoded (s := takeWires s) hrx hi))

theorem step_runs_sigReset {s : State} (hw : (s.port.wires.headD 0).getLsbD 0 = true) :
    step s = exec .sigReset { s with port := { s.port with wires := s.port.wires.tail } } :=
  step_of_run (nextInput_of_sigReset ((decodeWires_eq_sigReset_iff _).2 hw))

theorem step_runs_sigAbort {s : State} (hr : s.dec.state.reading = true) (hw : s.port.wires.headD 0 = 2) :
    step s = exec .sigAbort { s with port := { s.port with wires := s.port.wires.tail } } :=
  step_of_run (nextInput_of_sigAbort ((congrArg decodeWires hw).trans decodeWires_two) hr)

/-- Settles O6: one clause for each port, by the equation of `nextInput` for what that port delivers. -/
theorem stepRunsDecodedInput : Obligations.StepRunsDecodedInput :=
  ⟨fun _ _ _ _ hp hr hw hcmd hi => step_runs_command hp hr hw hcmd hi,
    fun _ _ _ _ hr hw hrx hi => step_runs_event hr hw hrx hi,
    fun _ hw => step_runs_sigReset hw,
    fun _ hr hw => step_runs_sigAbort hr hw⟩

end Sys2Proof.Machine
end

section
/-! SUPPORT. What the invariant rests on: the bytes that are written, one reasoning rule of `RegistersOk` for each kind of
update of the state, and the agreement of the command in progress with the decoder (R24, R42, R44, R60). -/

namespace Sys2Proof.Machine

/-! ## Written bytes -/

theorem Written.mono {s : State} {sp : Space} {m n : Nat} (h : Written s sp n) (hmn : m ≤ n) : Written s sp m :=
  fun i hi => h i (by omega)

/-- A write defines bytes and undefines none. -/
theorem Written.writeBuffer {s : State} {sp : Space} {n : Nat} (h : Written s sp n) (sp' : Space) (i : Nat)
    (bs : List Byte) : Written (writeBuffer sp' i bs s) sp n := by
  intro j hj
  rw [writeBuffer_mem, Memory.readAt_writeList]
  split
  · simp only [isSome_getElem?]; omega
  · exact h j hj

/-- A write at the end of the written bytes extends them. -/
theorem Written.writeBuffer_end {s : State} {sp : Space} {i : Nat} (h : Written s sp i) (bs : List Byte) :
    Written (Machine.writeBuffer sp i bs s) sp (i + bs.length) := by
  intro j hj
  rcases Nat.lt_or_ge j i with hji | hji
  · exact h.writeBuffer sp i bs j hji
  · rw [writeBuffer_mem, Memory.readAt_writeList, if_pos (by simp only [Memory.addr]; omega)]
    simp only [isSome_getElem?, Memory.addr]; omega

/-- Forgetting RXBUF leaves the written bytes of the other buffers (R34). -/
theorem Written.forgetRxbuf {s : State} {sp : Space} {n : Nat} (h : Written s sp n) (hsp : sp ≠ .rxbuf)
    (hn : n ≤ 2 ^ 32) : Written (forgetRxbuf s) sp n := by
  intro i hi
  rw [forgetRxbuf_mem, Memory.readAt_forget_other _ _ hsp (by omega)]
  exact h i hi

/-! ## The decoder's registers -/

/-- `DecoderOk` speaks of the decoder and of RXBUF only. -/
theorem DecoderOk.of_rxbuf_eq {s t : State} (h : DecoderOk s) (hdec : t.dec = s.dec) (hepoch : t.epoch = s.epoch)
    (hmem : ∀ i, i < 2 ^ 32 → t.mem.readAt (Memory.addr .rxbuf i) = s.mem.readAt (Memory.addr .rxbuf i)) :
    DecoderOk t := by
  have hwritten : Written t .rxbuf s.dec.cnt.toNat ↔ Written s .rxbuf s.dec.cnt.toNat :=
    forall₂_congr fun i hi => by rw [hmem i (by omega)]
  have hpayload : rxPayload t = rxPayload s := by
    simp only [rxPayload, bufferBytes, hdec]
    refine List.map_congr_left fun i hi => ?_
    have hi : i < s.dec.len.toNat := List.mem_range.1 hi
    simp only [bufferByte, hmem i (by omega), hepoch]
  have hcrc : recomputedCrc t = recomputedCrc s := by simp only [recomputedCrc, hdec, hpayload]
  simpa only [DecoderOk, hdec, hwritten, hcrc] using h

/-- `RX_CNT` never counts beyond the longest payload (R31). -/
theorem DecoderOk.cnt_le {s : State} (h : DecoderOk s) : s.dec.cnt.toNat ≤ 1024 := by
  unfold DecoderOk at h
  split at h
  case h_1 | h_2 | h_3 => rw [h]; simp [Decoder.reset]
  case h_4 => obtain ⟨-, -, hlen, hcnt, -⟩ := h; omega
  case h_5 | h_6 | h_7 => obtain ⟨-, -, hlen, hcnt, -⟩ := h; omega
  case h_8 => exact h.2

/-! ## The client's registers -/

/-- The part of `RegistersOk` that speaks of the client's registers `c` in a state `s`. -/
structure ClientOk (s : State) (c : Client) : Prop where
  seq : c.seq.toNat ≤ 4
  bootverLen : c.bootverLen.toNat ≤ 1024
  ackmsgLen : c.ackmsgLen.toNat ≤ 1024
  stagedLen : c.stagedLen.toNat ≤ s.params.dataMax
  bytesXfer : c.bytesXfer.toNat ≤ s.params.dataMax
  log : c.log.length ≤ s.params.logMax
  bootver : Written s .bootver c.bootverLen.toNat
  ackmsg : Written s .ackmsg c.ackmsgLen.toNat

theorem RegistersOk.client {s : State} (h : RegistersOk s) : ClientOk s s.cl :=
  ⟨h.seq, h.bootverLen, h.ackmsgLen, h.stagedLen, h.bytesXfer, h.log, h.bootver, h.ackmsg⟩

theorem Phase.seqId_le (p : Phase) : p.seqId.toNat ≤ 4 := by cases p <;> decide

/-! ## The rules of `RegistersOk` -/

namespace RegistersOk

/-- The link, the ports, `LAST_ERR`, the checksums and the command in progress play no part. -/
theorem frame {s : State} (h : RegistersOk s) (g : Engine) (e : ErrKind) (p : Progress) (l : Link) (o : Ports) :
    RegistersOk { s with engine := g, lastErr := e, progress := p, link := l, port := o } :=
  ⟨h.params, h.memory, h.txLen, h.dbufLen, h.seq, h.bootverLen, h.ackmsgLen, h.stagedLen, h.bytesXfer, h.log,
    h.txbuf, h.dbuf, h.bootver, h.ackmsg, h.decoder⟩

theorem with_client {s : State} {c : Client} (h : RegistersOk s) (hc : ClientOk s c) :
    RegistersOk { s with cl := c } :=
  ⟨h.params, h.memory, h.txLen, h.dbufLen, hc.seq, hc.bootverLen, hc.ackmsgLen, hc.stagedLen, hc.bytesXfer, hc.log,
    h.txbuf, h.dbuf, hc.bootver, hc.ackmsg, h.decoder⟩

theorem with_txLen {s : State} {n : BitVec 11} (h : RegistersOk s) (hn : n.toNat ≤ 1025)
    (hw : Written s .txbuf (min n.toNat 1024)) : RegistersOk { s with txLen := n } :=
  ⟨h.params, h.memory, hn, h.dbufLen, h.seq, h.bootverLen, h.ackmsgLen, h.stagedLen, h.bytesXfer, h.log,
    hw, h.dbuf, h.bootver, h.ackmsg, h.decoder⟩

theorem with_dbufLen {s : State} {n : BitVec 32} (h : RegistersOk s) (hn : n.toNat ≤ s.params.dataMax + 1)
    (hw : Written s .dbuf (min n.toNat s.params.dataMax)) : RegistersOk { s with dbufLen := n } :=
  ⟨h.params, h.memory, h.txLen, hn, h.seq, h.bootverLen, h.ackmsgLen, h.stagedLen, h.bytesXfer, h.log,
    h.txbuf, hw, h.bootver, h.ackmsg, h.decoder⟩

theorem with_decoder {s : State} {d : Decoder} (h : RegistersOk s) (hd : DecoderOk { s with dec := d }) :
    RegistersOk { s with dec := d } :=
  ⟨h.params, h.memory, h.txLen, h.dbufLen, h.seq, h.bootverLen, h.ackmsgLen, h.stagedLen, h.bytesXfer, h.log,
    h.txbuf, h.dbuf, h.bootver, h.ackmsg, hd⟩

/-- A write, with the decoder's registers as they are when it is done (a byte received goes to RXBUF). -/
theorem with_write_and_decoder {s : State} {d : Decoder} (h : RegistersOk s) (sp : Space) (i : Nat) (bs : List Byte)
    (hd : DecoderOk { writeBuffer sp i bs s with dec := d }) : RegistersOk { writeBuffer sp i bs s with dec := d } :=
  ⟨h.params, Memory.wf_writeList bs _ h.memory, h.txLen, h.dbufLen, h.seq, h.bootverLen, h.ackmsgLen, h.stagedLen,
    h.bytesXfer, h.log, h.txbuf.writeBuffer sp i bs, h.dbuf.writeBuffer sp i bs, h.bootver.writeBuffer sp i bs,
    h.ackmsg.writeBuffer sp i bs, hd⟩

/-- A write outside RXBUF keeps every written byte and the decoder's registers. -/
theorem writeBuffer {s : State} (h : RegistersOk s) {sp : Space} {i : Nat} {bs : List Byte} (hsp : sp ≠ .rxbuf)
    (hi : i + bs.length ≤ 2 ^ 32) : RegistersOk (writeBuffer sp i bs s) :=
  h.with_write_and_decoder (d := s.dec) sp i bs
    (h.decoder.of_rxbuf_eq rfl rfl fun _ hj => Memory.readAt_writeList_other _ _ _ _ hsp.symm hi hj)

/-- RXBUF forgotten, with a decoder that needs none of its bytes. -/
theorem forgetRxbuf {s : State} {d : Decoder} (h : RegistersOk s)
    (hd : DecoderOk (forgetRxbuf { s with dec := d })) : RegistersOk (forgetRxbuf { s with dec := d }) := by
  obtain ⟨hdata, -, -⟩ := h.params
  have keep {sp : Space} {n : Nat} (hw : Written s sp n) (hsp : sp ≠ .rxbuf) (hn : n ≤ 2 ^ 32) :
      Written (Machine.forgetRxbuf { s with dec := d }) sp n :=
    Written.forgetRxbuf (s := { s with dec := d }) hw hsp hn
  exact ⟨h.params, Memory.wf_forget _ h.memory, h.txLen, h.dbufLen, h.seq, h.bootverLen, h.ackmsgLen, h.stagedLen,
    h.bytesXfer, h.log, keep h.txbuf nofun (by omega), keep h.dbuf nofun (by omega), keep h.bootver nofun (by omega),
    keep h.ackmsg nofun (by omega), hd⟩

/-! ### The shared operations -/

theorem rxFail {s : State} (h : RegistersOk s) {e : ErrKind} (he : decoderError e = true) :
    RegistersOk (rxFail e s) :=
  h.forgetRxbuf ⟨he, h.decoder.cnt_le⟩

theorem resetDecoder {s : State} (h : RegistersOk s) : RegistersOk (resetDecoder s) :=
  h.forgetRxbuf (d := Decoder.reset) rfl

theorem startDecoder {s : State} (h : RegistersOk s) : RegistersOk (startDecoder s) :=
  h.with_decoder rfl

theorem awaitResponse {s : State} (h : RegistersOk s) (p : Phase) (b : Bool) (k : Nat) :
    RegistersOk (awaitResponse p b k s) :=
  h.resetDecoder.startDecoder.frame _ _ _ _ _

/-- The log has room for each record that is appended (R40). -/
theorem logAppend {s : State} (h : RegistersOk s) (r : LogRecord) : RegistersOk (logAppend r s) := by
  obtain ⟨hroom, heq⟩ | ⟨-, heq⟩ := logAppend_cases r s
  · rw [heq]
    refine h.with_client { h.client with log := ?_ }
    simp only [List.length_append, List.length_singleton]; omega
  · rw [heq]
    exact h.with_client { h.client with }

/-- A request of at most 1024 bytes is written in TXBUF, under the phase's sequence id (R262). -/
theorem loadRequest {s : State} (h : RegistersOk s) (p : Phase) {m : List Byte} (hm : m.length ≤ 1024) :
    RegistersOk (loadRequest p m s) := by
  have hlen : (BitVec.ofNat 11 m.length).toNat = m.length := by rw [BitVec.toNat_ofNat]; omega
  have hstored : RegistersOk (Machine.writeBuffer .txbuf 0 m s) := h.writeBuffer nofun (by omega)
  have hwritten : Written (Machine.writeBuffer .txbuf 0 m s) .txbuf (0 + m.length) :=
    Written.writeBuffer_end (fun _ hi => absurd hi (Nat.not_lt_zero _)) m
  have hsized := hstored.with_txLen (n := BitVec.ofNat 11 m.length) (by omega) (hwritten.mono (by omega))
  exact hsized.with_client { hsized.client with seq := p.seqId_le }

/-- A push below the limit is stored, and a full TXBUF is fully written (R165). -/
theorem pushTxbuf {s : State} (h : RegistersOk s) (b : Byte) : RegistersOk (pushTxbuf b s) := by
  unfold Machine.pushTxbuf
  split
  · next hlt =>
    have hlen : (s.txLen + 1).toNat = s.txLen.toNat + 1 := by bv_omega
    have hstored : RegistersOk (Machine.writeBuffer .txbuf s.txLen.toNat [b] s) :=
      h.writeBuffer nofun (by simp only [List.length_singleton]; omega)
    have hwritten : Written (Machine.writeBuffer .txbuf s.txLen.toNat [b] s) .txbuf (s.txLen.toNat + 1) :=
      (h.txbuf.mono (by omega)).writeBuffer_end [b]
    exact hstored.with_txLen (by omega) (hwritten.mono (by omega))
  · have hfull : (1025 : BitVec 11).toNat = 1025 := rfl
    exact h.with_txLen (by omega) (h.txbuf.mono (by omega))

/-- A push below the limit is stored, and a full DBUF is fully written (R255). -/
theorem pushDbuf {s : State} (h : RegistersOk s) (b : Byte) : RegistersOk (pushDbuf b s) := by
  obtain ⟨hdata, -, -⟩ := h.params
  unfold Machine.pushDbuf
  split
  · next hlt =>
    have hlen : (s.dbufLen + 1).toNat = s.dbufLen.toNat + 1 := by bv_omega
    have hstored : RegistersOk (Machine.writeBuffer .dbuf s.dbufLen.toNat [b] s) :=
      h.writeBuffer nofun (by simp only [List.length_singleton]; omega)
    have hwritten : Written (Machine.writeBuffer .dbuf s.dbufLen.toNat [b] s) .dbuf (s.dbufLen.toNat + 1) :=
      (h.dbuf.mono (by omega)).writeBuffer_end [b]
    exact hstored.with_dbufLen (by rw [writeBuffer_params]; omega) (hwritten.mono (by omega))
  · have hlen : (BitVec.ofNat 32 (s.params.dataMax + 1)).toNat = s.params.dataMax + 1 := by
      rw [BitVec.toNat_ofNat]; omega
    exact h.with_dbufLen (by omega) (h.dbuf.mono (by omega))

end RegistersOk

end Sys2Proof.Machine
end

section
/-! SUPPORT. The frame decoder keeps the invariant's part on the registers, one lemma for each of its states (R184 to R192). -/

namespace Sys2Proof.Machine

/-- What a receive event may change before the command in progress hears of it: the decoder, the memory, and how often a
buffer's contents have become unspecified (R183, R190 to R192). -/
def DecoderOnly (f : State → State) : Prop :=
  ∀ s, ∃ d m k, f s = { s with dec := d, mem := m, epoch := k }

theorem decoderOnly_rxFail (e : ErrKind) : DecoderOnly (rxFail e) := fun _ => ⟨_, _, _, rfl⟩

theorem decoderOnly_receiveTimeout : DecoderOnly receiveTimeout := by
  intro s
  unfold receiveTimeout
  split <;> exact decoderOnly_rxFail _ s

theorem decoderOnly_rxSyncing (b : Byte) : DecoderOnly (rxSyncing b) := by
  intro s
  unfold rxSyncing
  split
  · exact ⟨_, _, _, rfl⟩
  · split <;> exact ⟨_, _, _, rfl⟩

theorem decoderOnly_rxLength (b : Byte) : DecoderOnly (rxLength b) := by
  intro s
  unfold rxLength
  split
  · exact ⟨_, _, _, rfl⟩
  · dsimp only
    split
    · exact ⟨_, _, _, rfl⟩
    · split <;> exact ⟨_, _, _, rfl⟩

theorem decoderOnly_storePayload (b : Byte) : DecoderOnly (storePayload b) := by
  intro s
  unfold storePayload
  dsimp only
  split <;> exact ⟨_, _, _, rfl⟩

theorem decoderOnly_rxPayloadByte (b : Byte) : DecoderOnly (rxPayloadByte b) := by
  intro s
  unfold rxPayloadByte
  split
  · split
    · exact decoderOnly_storePayload _ s
    · exact decoderOnly_rxFail _ s
  · split
    · exact ⟨_, _, _, rfl⟩
    · split
      · exact decoderOnly_rxFail _ s
      · exact decoderOnly_storePayload _ s

theorem decoderOnly_rxCrcByte (b : Byte) : DecoderOnly (rxCrcByte b) := by
  intro s
  unfold rxCrcByte
  split <;> exact ⟨_, _, _, rfl⟩

theorem decoderOnly_rxEnd (b : Byte) : DecoderOnly (rxEnd b) := by
  intro s
  unfold rxEnd
  split
  · exact decoderOnly_rxFail _ s
  · split
    · exact decoderOnly_rxFail _ s
    · exact ⟨_, _, _, rfl⟩

theorem decoderOnly_receiveByte (b : Byte) : DecoderOnly (receiveByte b) := by
  intro s
  unfold receiveByte
  split
  · exact decoderOnly_rxSyncing b s
  · exact decoderOnly_rxLength b s
  · exact decoderOnly_rxPayloadByte b s
  · exact decoderOnly_rxCrcByte b s
  · exact decoderOnly_rxEnd b s
  all_goals exact ⟨_, _, _, rfl⟩

/-! ## `DecoderOk` in each state in which a byte is taken -/

section
variable {s : State}

theorem decoderOk_syncing_iff (hs : s.dec.state = .syncing) :
    DecoderOk s ↔ s.dec = { Decoder.reset with state := .syncing, discard := s.dec.discard } := by
  simp only [DecoderOk, hs]

theorem decoderOk_readingLength_iff (hs : s.dec.state = .readingLength) :
    DecoderOk s ↔ s.dec = { Decoder.reset with
      state := .readingLength, discard := s.dec.discard, lenb0 := s.dec.lenb0, idx := s.dec.idx } := by
  simp only [DecoderOk, hs]

theorem decoderOk_readingPayload_iff (hs : s.dec.state = .readingPayload) :
    DecoderOk s ↔ s.dec.err = .none ∧ s.dec.len = receivedLength s.dec ∧ s.dec.len.toNat ≤ 1024 ∧
      s.dec.cnt.toNat < s.dec.len.toNat ∧ s.dec.idx = false ∧ s.dec.crc = 0 ∧ Written s .rxbuf s.dec.cnt.toNat := by
  simp only [DecoderOk, hs]

theorem decoderOk_readingCrc_iff (hs : s.dec.state = .readingCrc) :
    DecoderOk s ↔ s.dec.err = .none ∧ s.dec.len = receivedLength s.dec ∧ s.dec.len.toNat ≤ 1024 ∧
      s.dec.cnt.toNat = s.dec.len.toNat ∧ s.dec.esc = false ∧ Written s .rxbuf s.dec.cnt.toNat := by
  simp only [DecoderOk, hs]

theorem decoderOk_readingEnd_iff (hs : s.dec.state = .readingEnd) :
    DecoderOk s ↔ s.dec.err = .none ∧ s.dec.len = receivedLength s.dec ∧ s.dec.len.toNat ≤ 1024 ∧
      s.dec.cnt.toNat = s.dec.len.toNat ∧ s.dec.esc = false ∧ s.dec.idx = false ∧
      Written s .rxbuf s.dec.cnt.toNat := by
  simp only [DecoderOk, hs]

end

namespace RegistersOk

variable {s : State}

/-- The search for the start byte (R184). -/
theorem rxSyncing (h : RegistersOk s) (hs : s.dec.state = .syncing) (b : Byte) : RegistersOk (rxSyncing b s) := by
  have hdec := (decoderOk_syncing_iff hs).1 h.decoder
  unfold Machine.rxSyncing
  split
  · refine h.with_decoder ?_
    rw [hdec]; rfl
  · split
    · exact h
    · refine h.with_decoder ?_
      rw [hdec]; rfl

/-- The two length bytes; a length over 1024 fails the decoder, so a payload fits RXBUF (R185). -/
theorem rxLength (h : RegistersOk s) (hs : s.dec.state = .readingLength) (b : Byte) :
    RegistersOk (rxLength b s) := by
  have hdec := (decoderOk_readingLength_iff hs).1 h.decoder
  obtain ⟨herr, hcnt, hesc, hcrc⟩ : s.dec.err = .none ∧ s.dec.cnt = 0 ∧ s.dec.esc = false ∧ s.dec.crc = 0 := by
    rw [hdec]; exact ⟨rfl, rfl, rfl, rfl⟩
  unfold Machine.rxLength
  split
  · refine h.with_decoder ?_
    rw [hdec]; rfl
  · dsimp only
    split
    · exact h.forgetRxbuf ⟨rfl, h.decoder.cnt_le⟩
    · next hle =>
      have hmax := Nat.le_of_not_lt hle
      split
      · next hzero =>
        refine h.with_decoder ⟨herr, rfl, hmax, ?_, hesc, ?_⟩
        · simp only [hcnt, hzero]; rfl
        · simp only [hcnt]; exact fun _ hi => absurd hi (Nat.not_lt_zero _)
      · next hzero =>
        have hpos := Nat.pos_of_ne_zero fun h0 => hzero (BitVec.eq_of_toNat_eq h0)
        exact h.with_decoder ⟨herr, rfl, hmax, hpos, rfl, hcrc, fun _ hi => absurd hi (Nat.not_lt_zero _)⟩

/-- A stored byte is written at `RX_CNT`, so the written bytes keep up with the count (R186). -/
theorem storePayload (h : RegistersOk s) (hs : s.dec.state = .readingPayload) (v : Byte) :
    RegistersOk (storePayload v s) := by
  obtain ⟨herr, hlen, hmax, hcnt, hidx, hcrc, hw⟩ := (decoderOk_readingPayload_iff hs).1 h.decoder
  have hnext : (s.dec.cnt + 1).toNat = s.dec.cnt.toNat + 1 := by bv_omega
  have hstored : Written (Machine.writeBuffer .rxbuf s.dec.cnt.toNat [v] s) .rxbuf (s.dec.cnt + 1).toNat := by
    rw [hnext]; exact hw.writeBuffer_end [v]
  unfold Machine.storePayload
  dsimp only
  split
  · next hend => exact h.with_write_and_decoder _ _ _ ⟨herr, hlen, hmax, hend, rfl, hstored⟩
  · next hend =>
    have hmore : (s.dec.cnt + 1).toNat < s.dec.len.toNat := by omega
    exact h.with_write_and_decoder _ _ _
      ((decoderOk_readingPayload_iff (by exact hs)).2 ⟨herr, hlen, hmax, hmore, hidx, hcrc, hstored⟩)

theorem rxPayloadByte (h : RegistersOk s) (hs : s.dec.state = .readingPayload) (b : Byte) :
    RegistersOk (rxPayloadByte b s) := by
  unfold Machine.rxPayloadByte
  split
  · split
    · exact h.storePayload hs _
    · exact h.rxFail rfl
  · split
    · exact h.with_decoder ((decoderOk_readingPayload_iff (by exact hs)).2 ((decoderOk_readingPayload_iff hs).1 h.decoder))
    · split
      · exact h.rxFail rfl
      · exact h.storePayload hs _

/-- The two CRC bytes (R187). -/
theorem rxCrcByte (h : RegistersOk s) (hs : s.dec.state = .readingCrc) (b : Byte) :
    RegistersOk (rxCrcByte b s) := by
  have hdec := (decoderOk_readingCrc_iff hs).1 h.decoder
  unfold Machine.rxCrcByte
  split
  · exact h.with_decoder ((decoderOk_readingCrc_iff (by exact hs)).2 hdec)
  · obtain ⟨herr, hlen, hmax, hcnt, hesc, hw⟩ := hdec
    exact h.with_decoder ⟨herr, hlen, hmax, hcnt, hesc, rfl, hw⟩

/-- The end byte: `Complete` is reached only where the received CRC matches (R188, R189). -/
theorem rxEnd (h : RegistersOk s) (hs : s.dec.state = .readingEnd) (b : Byte) : RegistersOk (rxEnd b s) := by
  obtain ⟨herr, hlen, hmax, hcnt, hesc, hidx, hw⟩ := (decoderOk_readingEnd_iff hs).1 h.decoder
  unfold Machine.rxEnd
  split
  · exact h.rxFail rfl
  · split
    · exact h.rxFail rfl
    · next hmatch =>
      exact h.with_decoder ⟨herr, hlen, hmax, hcnt, hesc, hidx, hw, not_not.1 hmatch⟩

/-- A byte keeps the registers legal in every state of the decoder. -/
theorem receiveByte (h : RegistersOk s) (b : Byte) : RegistersOk (receiveByte b s) := by
  unfold Machine.receiveByte
  split
  · exact h.rxSyncing ‹_› b
  · exact h.rxLength ‹_› b
  · exact h.rxPayloadByte ‹_› b
  · exact h.rxCrcByte ‹_› b
  · exact h.rxEnd ‹_› b
  all_goals exact h

theorem receiveTimeout (h : RegistersOk s) : RegistersOk (receiveTimeout s) := by
  unfold Machine.receiveTimeout
  split <;> exact h.rxFail rfl

end RegistersOk

end Sys2Proof.Machine
end

section
/-! SUPPORT. What a step can be (R24, R65, R330, R350): an event or a signal, a wait, or a command; and what a command and an
event leave alone at the command port and in the Checksum Engine. -/

namespace Sys2Proof.Machine

/-! ## What a step can be -/

theorem decodeRx_isCommand {e : RxSymbol} {i : Instr} (h : decodeRx e = .ok i) : isCommand i = false := by
  unfold decodeRx at h
  split at h
  · cases h; rfl
  · split at h
    · cases h; rfl
    · split at h <;> cases h; rfl

/-- The link has no event, or hands over an event or a symbol that no link produces (R65, R104). -/
theorem nextEvent_cases (s : State) :
    (s.link.rx = [] ∧ nextEvent s = .wait s) ∨
    (∃ i rest, isCommand i = false ∧ nextEvent s = .run i { s with link := { s.link with rx := rest } }) ∨
    nextEvent s = .badSymbol := by
  unfold nextEvent
  split
  · next hrx => exact .inl ⟨hrx, rfl⟩
  · next e rest hrx =>
    split
    · next i hi => exact .inr (.inl ⟨i, rest, decodeRx_isCommand hi, rfl⟩)
    · exact .inr (.inr rfl)

/-- The host has presented no command, or one that is run, or one with a reserved opcode (R106). -/
theorem nextCommand_cases (s : State) :
    (s.port.cmd = [] ∧ nextCommand s = .wait s) ∨
    (∃ i rest, nextCommand s = .run i { s with port := { s.port with cmd := rest } }) ∨
    (∃ rest, nextCommand s = .reserved { s with port := { s.port with cmd := rest } }) := by
  unfold nextCommand
  split
  · next hcmd => exact .inl ⟨hcmd, rfl⟩
  · next w rest hcmd =>
    split
    · next i hi => exact .inr (.inl ⟨i, rest, rfl⟩)
    · exact .inr (.inr ⟨rest, rfl⟩)

/-- Outside a reading state and with `BUSY` 1 the block waits (log entry 4). -/
theorem nextInput_of_busy {s : State} (hw : decodeWires (wireSample s) ≠ .ok .sigReset)
    (hr : s.dec.state.reading = false) (hb : s.busy = true) : nextInput s = .wait (takeWires s) := by
  obtain ⟨hreset, -⟩ | ⟨-, hreading, -⟩ | ⟨-, hreading, -⟩ | ⟨-, -, -, h⟩ | ⟨-, -, hfree, -⟩ := nextInput_cases s
  · exact absurd hreset hw
  · simp [hr] at hreading
  · simp [hr] at hreading
  · exact h
  · simp [hb] at hfree

theorem step_of_wait {s t : State} (h : nextInput s = .wait t) : step s = .next t := by
  simp only [step, h]

theorem step_of_reserved {s t : State} (h : nextInput s = .reserved t) : step s = .next (refuse t) := by
  simp only [step, h]

/-- A step that does not stop, after it has taken its sample of the wires: a receive event or a signal, or a wait, or, in a
free block that does not read, a command that is run or refused. -/
theorem step_cases {s t : State} (h : step s = .next t) :
    (∃ i rx, isCommand i = false ∧ exec i { takeWires s with link := { s.link with rx := rx } } = .next t) ∨
    t = takeWires s ∨
    (s.progress = .idle ∧ s.dec.state.reading = false ∧ ∃ cmd,
      (∃ i, exec i { takeWires s with port := { (takeWires s).port with cmd := cmd } } = .next t) ∨
      t = refuse { takeWires s with port := { (takeWires s).port with cmd := cmd } }) := by
  obtain ⟨-, hin⟩ | ⟨-, -, hin⟩ | ⟨-, -, hin⟩ | ⟨-, -, -, hin⟩ | ⟨-, hr, hfree, hin⟩ := nextInput_cases s
  · exact .inl ⟨.sigReset, s.link.rx, rfl, step_of_run hin ▸ h⟩
  · exact .inl ⟨.sigAbort, s.link.rx, rfl, step_of_run hin ▸ h⟩
  · obtain ⟨-, hev⟩ | ⟨i, rest, hi, hev⟩ | hev := nextEvent_cases (takeWires s)
    · rw [step_of_wait (hin.trans hev)] at h
      cases h; exact .inr (.inl rfl)
    · exact .inl ⟨i, rest, hi, step_of_run (hin.trans hev) ▸ h⟩
    · simp [step, hin, hev] at h
  · rw [step_of_wait hin] at h
    cases h; exact .inr (.inl rfl)
  · have hidle := (busy_eq_false_iff s).1 hfree
    obtain ⟨-, hcmd⟩ | ⟨i, rest, hcmd⟩ | ⟨rest, hcmd⟩ := nextCommand_cases (takeWires s)
    · rw [step_of_wait (hin.trans hcmd)] at h
      cases h; exact .inr (.inl rfl)
    · exact .inr (.inr ⟨hidle, hr, rest, .inl ⟨i, step_of_run (hin.trans hcmd) ▸ h⟩⟩)
    · rw [step_of_reserved (hin.trans hcmd)] at h
      cases h; exact .inr (.inr ⟨hidle, hr, rest, .inr rfl⟩)

/-! ## What the host's side keeps -/

/-- What a frame decode or an exchange leaves of the host's side: the words at the command port (R24), and the Checksum
Engine unless reset comes during the exchange's write (R25, R26, R352). -/
structure HostSideKept (s t : State) : Prop where
  cmd : t.port.cmd = s.port.cmd
  engine : (∀ n, nextWriteAnswer s.link ≠ .resetDuring n) → t.engine = s.engine

namespace HostSideKept

variable {s : State}

theorem of_state_eq {u t : State} (h : HostSideKept u t) (hport : u.port = s.port) (hlink : u.link = s.link)
    (hengine : u.engine = s.engine) : HostSideKept s t :=
  ⟨hport ▸ h.cmd, hlink ▸ hengine ▸ h.engine⟩

theorem phaseFailed (p : Phase) (b : Bool) (e : ErrKind) : HostSideKept s (phaseFailed p b e s) :=
  ⟨rfl, fun _ => rfl⟩

theorem sendRequest (p : Phase) (b : Bool) (m : List Byte) : HostSideKept s (sendRequest p b m s) := by
  obtain ⟨n, -, -, heq⟩ | ⟨n, -, -, heq⟩ | ⟨-, heq⟩ | ⟨n, hreset, heq⟩ := sendRequest_cases p b m s
  · rw [heq]; exact ⟨by simp, by simp⟩
  · rw [heq]; exact ⟨by simp, by simp⟩
  · rw [heq]; exact ⟨by simp, by simp⟩
  · rw [heq]; exact ⟨rfl, fun hno => absurd hreset (hno n)⟩

theorem startPhase (p : Phase) (b : Bool) (n : Word) : HostSideKept s (startPhase p b n s) := by
  obtain ⟨-, heq⟩ | ⟨-, -, heq⟩ := startPhase_cases p b n s
  · rw [heq]; exact phaseFailed p b _
  · rw [heq]; exact (sendRequest p b _).of_state_eq rfl rfl rfl

theorem phaseCommand (p : Phase) (n : Word) : HostSideKept s (phaseCommand p n s) := by
  obtain ⟨-, heq⟩ | ⟨-, heq⟩ := phaseCommand_cases p n s
  · rw [heq]; exact startPhase p false n
  · rw [heq]; exact ⟨rfl, fun _ => rfl⟩

theorem continueSession (p : Phase) (b : Bool) : HostSideKept s (continueSession p b s) := by
  obtain ⟨-, heq⟩ | ⟨-, -, heq⟩ | ⟨-, -, heq⟩ | ⟨-, -, heq⟩ | ⟨-, -, heq⟩ := continueSession_cases p b s
  · rw [heq]; exact ⟨rfl, fun _ => rfl⟩
  · rw [heq]; exact startPhase _ _ _
  · rw [heq]; exact startPhase _ _ _
  · rw [heq]; exact startPhase _ _ _
  · rw [heq]; exact ⟨rfl, fun _ => rfl⟩

theorem judgeResponse (p : Phase) (b : Bool) : HostSideKept s (judgeResponse p b s) := by
  obtain ⟨-, heq⟩ | ⟨r, -, -, heq⟩ | ⟨r, -, -, -, heq⟩ | ⟨r, -, -, -, heq⟩ := judgeResponse_cases p b s
  · rw [heq]; exact phaseFailed p b _
  · rw [heq]; exact (phaseFailed p b _).of_state_eq (by simp) (by simp) (by simp)
  · rw [heq]; exact (phaseFailed p b _).of_state_eq (by simp) (by simp) (by simp)
  · rw [heq]; exact (continueSession p b).of_state_eq (by simp) (by simp) (by simp)

theorem finishExchange (p : Phase) (b : Bool) (k : Nat) : HostSideKept s (finishExchange p b k s) := by
  obtain ⟨-, heq⟩ | ⟨-, -, heq⟩ | ⟨-, -, -, heq⟩ := finishExchange_cases p b k s
  · rw [heq]; exact judgeResponse p b
  · rw [heq]; exact phaseFailed p b _
  · rw [heq]; exact ⟨rfl, fun _ => rfl⟩

theorem afterEvent : HostSideKept s (afterEvent s) := by
  obtain ⟨-, heq⟩ | ⟨-, -, heq⟩ | ⟨-, -, heq⟩ | ⟨p, b, k, -, -, heq⟩ := afterEvent_cases s
  · rw [heq]; exact ⟨rfl, fun _ => rfl⟩
  · rw [heq]; exact ⟨rfl, fun _ => rfl⟩
  · rw [heq]
    obtain ⟨-, heq⟩ | ⟨-, -, heq⟩ | ⟨-, -, heq⟩ := respondDecode_cases s <;> rw [heq] <;> exact ⟨rfl, fun _ => rfl⟩
  · rw [heq]; exact finishExchange p b k

theorem onEvent {f : State → State} (hf : DecoderOnly f) : HostSideKept s (onEvent f s) := by
  obtain ⟨-, heq⟩ | ⟨-, heq⟩ := onEvent_cases f s
  · obtain ⟨d, m, k, hfs⟩ := hf s
    rw [heq, hfs]; exact afterEvent.of_state_eq rfl rfl rfl
  · rw [heq]; exact ⟨rfl, fun _ => rfl⟩

/-- A receive event or an abort. -/
theorem exec_event {i : Instr} {t : State} (hi : isCommand i = false) (hne : i ≠ .sigReset)
    (h : exec i s = .next t) : HostSideKept s t := by
  cases i with
  | rxByte b => cases h; exact onEvent (decoderOnly_receiveByte b)
  | rxTimeout => cases h; exact onEvent decoderOnly_receiveTimeout
  | rxError => cases h; exact onEvent (decoderOnly_rxFail _)
  | sigAbort => cases h; exact onEvent (decoderOnly_rxFail _)
  | sigReset => exact absurd rfl hne
  | _ => cases hi

end HostSideKept

end Sys2Proof.Machine
end

section
/-! SUPPORT. The invariant along the life of a command: it is answered, or an exchange waits for its response, or reset
comes (R24, R43, R262, R350); and from that the statements of the state family on the invariant. -/

namespace Sys2Proof.Machine

/-! ## The command in progress -/

/-- What an exchange in its `k`-th attempt can rely on (R43, R252, R262). -/
structure ExchangeOk (s : State) (p : Phase) (b : Bool) (k : Nat) : Prop where
  needs : s.cl.state = p.needs
  seq : s.cl.seq = p.seqId
  first : 1 ≤ k
  last : k ≤ s.params.rxAttempts
  data : p = .transfer ∨ b = true → s.dbufLen.toNat ≤ s.params.dataMax

/-- `BUSY` is 1 exactly while the decoder reads (R24), and an exchange keeps to its phase. -/
theorem progressOk_iff (s : State) :
    ProgressOk s ↔ (s.dec.state.reading = true ↔ s.progress ≠ .idle) ∧
      ∀ p b k, s.progress = .exchange p b k → ExchangeOk s p b k := by
  unfold ProgressOk
  cases hp : s.progress with
  | idle => simp
  | decode => simp
  | exchange p b k =>
    constructor
    · rintro ⟨hr, hneeds, hseq, hfirst, hlast, hdata⟩
      refine ⟨by simp [hr], fun p' b' k' e => ?_⟩
      cases e
      exact ⟨hneeds, hseq, hfirst, hlast, hdata⟩
    · rintro ⟨hr, hx⟩
      obtain ⟨hneeds, hseq, hfirst, hlast, hdata⟩ := hx p b k rfl
      exact ⟨hr.2 nofun, hneeds, hseq, hfirst, hlast, hdata⟩

theorem Inv.reading_iff {s : State} (h : Inv s) : s.dec.state.reading = true ↔ s.progress ≠ .idle :=
  ((progressOk_iff s).1 h.2).1

theorem Inv.exchange {s : State} (h : Inv s) {p : Phase} {b : Bool} {k : Nat} (hp : s.progress = .exchange p b k) :
    ExchangeOk s p b k :=
  ((progressOk_iff s).1 h.2).2 p b k hp

/-- The ports and the link play no part in the invariant. -/
theorem Inv.frame {s : State} (h : Inv s) (l : Link) (o : Ports) : Inv { s with link := l, port := o } :=
  ⟨h.1.frame s.engine s.lastErr s.progress l o, h.2⟩

section
variable {s : State} (h : RegistersOk s)
include h

theorem inv_of_idle (hp : s.progress = .idle) (hr : s.dec.state.reading = false) : Inv s :=
  ⟨h, (progressOk_iff s).2 ⟨by simp [hp, hr], fun _ _ _ e => by simp [hp] at e⟩⟩

theorem inv_respond (hr : s.dec.state.reading = false) (e : ErrKind) (v : Word) : Inv (respond e v s) :=
  inv_of_idle (h.frame _ _ _ _ _) rfl hr

theorem inv_answer (hr : s.dec.state.reading = false) (v : Option Word) : Inv (answer v s) := by
  cases v <;> exact inv_respond h hr _ _

theorem inv_phaseFailed (hr : s.dec.state.reading = false) (p : Phase) (b : Bool) (e : ErrKind) :
    Inv (phaseFailed p b e s) :=
  inv_respond (h.with_client (c := { s.cl with failedPhase := some p }) { h.client with }) hr _ _

theorem inv_awaitResponse {p : Phase} {b : Bool} {k : Nat} (hx : ExchangeOk s p b k) :
    Inv (awaitResponse p b k s) := by
  refine ⟨h.awaitResponse p b k, (progressOk_iff _).2 ⟨by simp [RxState.reading], fun p' b' k' e => ?_⟩⟩
  cases e
  exact { hx with }

end

@[simp] theorem pushTxbuf_dec (b : Byte) (s : State) : (pushTxbuf b s).dec = s.dec := by
  unfold pushTxbuf; split <;> rfl

@[simp] theorem pushDbuf_dec (b : Byte) (s : State) : (pushDbuf b s).dec = s.dec := by
  unfold pushDbuf; split <;> rfl

/-- The registers of reset under any legal parameters, whatever the link and the ports hold (R42, R44, R351). -/
theorem inv_reset {p : Params} (hp : p.wf) (k : Nat) (l : Link) (o : Ports) :
    Inv { State.reset with epoch := k, link := l, port := o, params := p } :=
  inv_of_idle
    { params := hp, memory := rfl, decoder := rfl
      txLen := Nat.zero_le _, dbufLen := Nat.zero_le _, seq := Nat.zero_le _, bootverLen := Nat.zero_le _
      ackmsgLen := Nat.zero_le _, stagedLen := Nat.zero_le _, bytesXfer := Nat.zero_le _, log := Nat.zero_le _
      txbuf := fun _ hi => absurd hi (by simp [State.reset])
      dbuf := fun _ hi => absurd hi (by simp [State.reset])
      bootver := fun _ hi => absurd hi (Nat.not_lt_zero _)
      ackmsg := fun _ hi => absurd hi (Nat.not_lt_zero _) }
    rfl rfl

theorem inv_resetBlock {s : State} (hp : s.params.wf) : Inv (resetBlock s) :=
  inv_reset hp _ _ _

/-! ## The start of a phase -/

theorem dbufOvf_eq_false_iff (s : State) : dbufOvf s = false ↔ s.dbufLen.toNat ≤ s.params.dataMax := by
  simp [dbufOvf]

/-- The write half of an exchange, whatever the link answers (R262, R352). -/
theorem inv_sendRequest {s : State} (h : RegistersOk s) (hr : s.dec.state.reading = false) {p : Phase} {b : Bool}
    (hx : ExchangeOk s p b 1) (m : List Byte) : Inv (sendRequest p b m s) := by
  have hwritten : RegistersOk (txWrite (frameBytes m) s) := h.frame s.engine s.lastErr s.progress _ _
  have hflushed : RegistersOk (txFlush (txWrite (frameBytes m) s)) := hwritten.frame s.engine s.lastErr s.progress _ _
  obtain ⟨n, -, -, heq⟩ | ⟨n, -, -, heq⟩ | ⟨-, heq⟩ | ⟨n, -, heq⟩ := sendRequest_cases p b m s
  · rw [heq]
    obtain ⟨hneeds, hseq, hfirst, hlast, hdata⟩ := hx
    exact inv_awaitResponse (hflushed.logAppend _)
      ⟨by simpa using hneeds, by simpa using hseq, hfirst, by simpa using hlast, by simpa using hdata⟩
  · rw [heq]; exact inv_phaseFailed (hflushed.logAppend _) (by simpa using hr) _ _ _
  · rw [heq]; exact inv_phaseFailed (hwritten.logAppend _) (by simpa using hr) _ _ _
  · rw [heq]; exact inv_resetBlock h.params

/-- A phase starts in the client state it needs; a session has its data staged before its first phase (R252, R267). -/
theorem inv_startPhase {s : State} (h : RegistersOk s) (hr : s.dec.state.reading = false) {p : Phase} {b : Bool}
    (hneeds : s.cl.state = p.needs) (hsession : b = true → s.dbufLen.toNat ≤ s.params.dataMax) (n : Word) :
    Inv (startPhase p b n s) := by
  obtain ⟨-, heq⟩ | ⟨hovf, hlen, heq⟩ := startPhase_cases p b n s
  · rw [heq]; exact inv_phaseFailed h hr _ _ _
  · rw [heq]
    refine inv_sendRequest (h.loadRequest p hlen) hr ⟨hneeds, rfl, le_rfl, h.params.2.2, ?_⟩ _
    rintro (rfl | hb)
    · exact (dbufOvf_eq_false_iff s).1 (by simpa using hovf)
    · exact hsession hb

theorem inv_phaseCommand {s : State} (h : RegistersOk s) (hr : s.dec.state.reading = false) (p : Phase) (n : Word) :
    Inv (phaseCommand p n s) := by
  obtain ⟨hneeds, heq⟩ | ⟨-, heq⟩ := phaseCommand_cases p n s
  · rw [heq]; exact inv_startPhase (b := false) h hr hneeds nofun n
  · rw [heq]; exact inv_respond h hr _ _

/-! ## The response of a phase -/

/-- A decoded byte field is at most 1024 bytes long (R60). -/
theorem responseFits_of_msgDec {p : Params} {a : List Byte} {r : Response} (h : msgDec p a = some r) :
    responseFits r = true := by
  unfold msgDec at h
  split at h <;> exact (Option.filter_eq_some_iff.1 h).2

@[simp] theorem recordSuccess_cl_state (p : Phase) (body : ResponseBody) (s : State) :
    (recordSuccess p body s).cl.state = p.leaves := by
  unfold recordSuccess; split <;> rfl

/-- A field of at most 1024 bytes, written from the start of a buffer on, is written in full. -/
theorem written_field {s : State} (sp : Space) {bs : List Byte} (hbs : bs.length ≤ 1024) :
    Written (writeBuffer sp 0 bs s) sp (BitVec.ofNat 11 bs.length).toNat :=
  (Written.writeBuffer_end (fun _ hi => absurd hi (Nat.not_lt_zero _)) bs).mono
    (by rw [BitVec.toNat_ofNat]; omega)

theorem field_length_le {n : Nat} (hn : n ≤ 1024) : (BitVec.ofNat 11 n).toNat ≤ 1024 := by
  rw [BitVec.toNat_ofNat]; omega

theorem RegistersOk.recordResponse {s : State} (h : RegistersOk s) {r : Response} (hr : responseFits r = true) :
    RegistersOk (recordResponse r s) := by
  unfold Machine.recordResponse
  unfold responseFits at hr
  split
  · next ok msg hbody =>
    have hmsg : msg.length ≤ 1024 := by simpa [hbody] using hr
    have hstored : RegistersOk (Machine.writeBuffer .ackmsg 0 msg s) := h.writeBuffer nofun (by omega)
    exact hstored.with_client
      { hstored.client with ackmsgLen := field_length_le hmsg, ackmsg := written_field .ackmsg hmsg }
  · exact h.with_client { h.client with }

theorem RegistersOk.recordSuccess {s : State} (h : RegistersOk s) {p : Phase} {r : Response}
    (hr : responseFits r = true) (hdata : p = .transfer → s.dbufLen.toNat ≤ s.params.dataMax) :
    RegistersOk (recordSuccess p r.body s) := by
  unfold Machine.recordSuccess
  unfold responseFits at hr
  split
  · next bv sc fp hbody =>
    have hbv : bv.length ≤ 1024 := by simpa [hbody] using hr
    have hstored : RegistersOk (Machine.writeBuffer .bootver 0 bv s) := h.writeBuffer nofun (by omega)
    exact hstored.with_client
      { hstored.client with bootverLen := field_length_le hbv, bootver := written_field .bootver hbv }
  · exact h.with_client { h.client with stagedLen := hdata rfl }
  · exact h.with_client { h.client with }

/-- A phase that has succeeded is answered, or the session's next phase starts in the state it needs (R267). -/
theorem inv_continueSession {s : State} (h : RegistersOk s) (hr : s.dec.state.reading = false) {p : Phase} {b : Bool}
    (hleaves : s.cl.state = p.leaves) (hdata : b = true → s.dbufLen.toNat ≤ s.params.dataMax) :
    Inv (continueSession p b s) := by
  obtain ⟨-, heq⟩ | ⟨hb, rfl, heq⟩ | ⟨hb, rfl, heq⟩ | ⟨hb, rfl, heq⟩ | ⟨hb, rfl, heq⟩ := continueSession_cases p b s
  · rw [heq]; exact inv_respond h hr _ _
  · rw [heq]; exact inv_startPhase (p := .prepare) h hr hleaves (fun _ => hdata hb) _
  · rw [heq]; exact inv_startPhase (p := .transfer) h hr hleaves (fun _ => hdata hb) _
  · rw [heq]; exact inv_startPhase (p := .verify) h hr hleaves (fun _ => hdata hb) _
  · rw [heq]
    exact inv_respond (h.with_client (c := { s.cl with bytesXfer := s.dbufLen })
      { h.client with bytesXfer := hdata hb }) hr _ _

theorem inv_judgeResponse {s : State} (h : RegistersOk s) (hr : s.dec.state.reading = false) {p : Phase} {b : Bool}
    (hdata : p = .transfer ∨ b = true → s.dbufLen.toNat ≤ s.params.dataMax) : Inv (judgeResponse p b s) := by
  obtain ⟨-, heq⟩ | ⟨r, hm, -, heq⟩ | ⟨r, hm, -, -, heq⟩ | ⟨r, hm, -, -, heq⟩ := judgeResponse_cases p b s
  · rw [heq]; exact inv_phaseFailed h hr _ _ _
  · rw [heq]; exact inv_phaseFailed (h.recordResponse (responseFits_of_msgDec hm)) (by simpa using hr) _ _ _
  · rw [heq]; exact inv_phaseFailed (h.recordResponse (responseFits_of_msgDec hm)) (by simpa using hr) _ _ _
  · rw [heq]
    have hfits := responseFits_of_msgDec hm
    refine inv_continueSession ((h.recordResponse hfits).recordSuccess hfits fun hp => ?_) (by simpa using hr)
      (recordSuccess_cl_state _ _ _) fun hb => ?_
    · simpa using hdata (.inl hp)
    · simpa using hdata (.inr hb)

/-- A further attempt is made only while attempts are left (R261). -/
theorem inv_finishExchange {s : State} (h : RegistersOk s) (hr : s.dec.state.reading = false) {p : Phase} {b : Bool}
    {k : Nat} (hx : ExchangeOk s p b k) : Inv (finishExchange p b k s) := by
  obtain ⟨-, heq⟩ | ⟨-, -, heq⟩ | ⟨-, hk, -, heq⟩ := finishExchange_cases p b k s
  · rw [heq]; exact inv_judgeResponse h hr hx.data
  · rw [heq]; exact inv_phaseFailed h hr _ _ _
  · rw [heq]
    exact inv_awaitResponse h { hx with first := by omega, last := Nat.lt_of_le_of_ne hx.last hk }

/-! ## Events, operations and steps -/

/-- An event is taken by a command in progress, which reads on, is answered or goes on (R181, R262). -/
theorem inv_onEvent {s : State} (h : Inv s) {f : State → State} (hf : DecoderOnly f) (hfs : RegistersOk (f s)) :
    Inv (onEvent f s) := by
  obtain ⟨hreading, heq⟩ | ⟨-, heq⟩ := onEvent_cases f s
  case inr => rw [heq]; exact h
  have hbusy := h.reading_iff.1 hreading
  obtain ⟨d, m, k, hft⟩ := hf s
  have hprogress : (f s).progress = s.progress := by rw [hft]
  have hx {p b k} (hp : s.progress = .exchange p b k) : ExchangeOk (f s) p b k := by
    rw [hft]; exact { h.exchange hp with }
  rw [heq]
  obtain ⟨hr, heq⟩ | ⟨-, hidle, -⟩ | ⟨hr, -, heq⟩ | ⟨p, b, k, hr, hp, heq⟩ := afterEvent_cases (f s)
  · rw [heq]
    exact ⟨hfs, (progressOk_iff _).2 ⟨by simp [hr, hprogress, hbusy], fun p b k hp => hx (hprogress ▸ hp)⟩⟩
  · exact absurd (hprogress ▸ hidle) hbusy
  · rw [heq]
    obtain ⟨-, heq⟩ | ⟨-, -, heq⟩ | ⟨-, -, heq⟩ := respondDecode_cases (f s) <;> rw [heq] <;>
      exact inv_respond hfs hr _ _
  · rw [heq]; exact inv_finishExchange hfs hr (hx (hprogress ▸ hp))

/-- A command keeps the invariant where it does so from a block that is free and whose decoder does not read. -/
theorem inv_accept {s : State} (h : Inv s) {f : State → State}
    (hf : RegistersOk s → s.dec.state.reading = false → Inv (f s)) : Inv (accept s f) := by
  obtain ⟨-, heq⟩ | ⟨hfree, heq⟩ := accept_cases s f
  · rw [heq]; exact h
  · rw [heq]
    have hidle := (busy_eq_false_iff s).1 hfree
    exact hf h.1 (by simpa [hidle] using h.reading_iff)

theorem inv_sendFrame {s : State} (h : RegistersOk s) (hr : s.dec.state.reading = false) (f : List Byte) :
    Inv (sendFrame f s) := by
  have hwritten : RegistersOk (txWrite f s) := h.frame s.engine s.lastErr s.progress _ _
  have hflushed : RegistersOk (txFlush (txWrite f s)) := hwritten.frame s.engine s.lastErr s.progress _ _
  obtain ⟨n, -, -, heq⟩ | ⟨n, -, -, heq⟩ | ⟨-, heq⟩ | ⟨n, -, heq⟩ := sendFrame_cases f s
  · rw [heq]; exact inv_respond hflushed hr _ _
  · rw [heq]; exact inv_respond hflushed hr _ _
  · rw [heq]; exact inv_respond hwritten hr _ _
  · rw [heq]; exact inv_resetBlock h.params

/-- `CL.OPEN` has the registers of reset but for `CL_STATE` (R257). -/
theorem RegistersOk.openedClient {s : State} (h : RegistersOk s) : RegistersOk { s with cl := openedClient } :=
  h.with_client
    { seq := Nat.zero_le _, bootverLen := Nat.zero_le _, ackmsgLen := Nat.zero_le _, stagedLen := Nat.zero_le _
      bytesXfer := Nat.zero_le _, log := Nat.zero_le _
      bootver := fun _ hi => absurd hi (Nat.not_lt_zero _)
      ackmsg := fun _ hi => absurd hi (Nat.not_lt_zero _) }

/-- `CL.OPEN`: refused, or the link's answer decides (R257). -/
theorem inv_execClOpen {s t : State} (h : Inv s) (ht : execClOpen s = .next t) : Inv t := by
  cases ht
  refine inv_accept h fun h hr => ?_
  have hcalled : RegistersOk (linkOpen s) := h.frame s.engine s.lastErr s.progress _ _
  split
  · exact inv_respond h hr _ _
  · split
    · exact inv_respond hcalled.openedClient hr _ _
    · exact inv_respond hcalled hr _ _
    · exact inv_resetBlock h.params

/-- `CL.CLOSE`: the client is disconnected in any case (R258). -/
theorem inv_execClClose {s t : State} (h : Inv s) (ht : execClClose s = .next t) : Inv t := by
  cases ht
  refine inv_accept h fun h hr => ?_
  split
  · exact inv_respond h hr _ _
  · split
    · have hclosed : RegistersOk { s with cl := { s.cl with state := .disconnected } } :=
        h.with_client { h.client with }
      exact inv_respond (hclosed.frame _ _ _ _ _) hr _ _
    · exact inv_resetBlock h.params

/-- `CL.RUN_SESSION`: a session starts only with its data staged (R267). -/
theorem inv_execClRunSession {s t : State} (h : Inv s) (ht : execClRunSession s = .next t) : Inv t := by
  cases ht
  refine inv_accept h fun h hr => ?_
  split
  · exact inv_respond h hr _ _
  · next hstate =>
    split
    · exact inv_phaseFailed h hr _ _ _
    · next hovf =>
      have hdata := (dbufOvf_eq_false_iff s).1 (by simpa using hovf)
      exact inv_startPhase (p := .handshake) h hr (not_not.1 hstate) (fun _ => hdata) _

/-- `DEC.START` is accepted in `Idle` only, so the decoder's registers are those of reset (R181). -/
theorem inv_execDecStart {s t : State} (h : Inv s) (ht : execDecStart s = .next t) : Inv t := by
  cases ht
  refine inv_accept h fun h hr => ?_
  split
  · exact inv_respond h hr _ _
  · exact ⟨h.startDecoder.frame s.engine s.lastErr .decode s.link s.port,
      (progressOk_iff _).2 ⟨by simp [RxState.reading], nofun⟩⟩

/-- Every operation keeps the invariant. -/
theorem exec_keeps_inv {i : Instr} {s t : State} (h : Inv s) (ht : exec i s = .next t) : Inv t := by
  cases i with
  | clOpen => exact inv_execClOpen h ht
  | clClose => exact inv_execClClose h ht
  | clRunSession => exact inv_execClRunSession h ht
  | decStart => exact inv_execDecStart h ht
  | nop | crc16Read | crc32Read => cases ht; exact inv_accept h fun h hr => inv_respond h hr _ _
  | rd | bufRead | logRead => cases ht; exact inv_accept h fun h hr => inv_answer h hr _
  | crc16Init | crc16Update | crc32Init | crc32Update =>
    cases ht; exact inv_accept h fun h hr => inv_of_idle (h.frame _ _ _ _ _) rfl hr
  | txbufClear =>
    cases ht
    exact inv_accept h fun h hr =>
      inv_respond (h.with_txLen (n := 0) (Nat.zero_le _) (h.txbuf.mono (by simp))) hr _ _
  | txbufPush b => cases ht; exact inv_accept h fun h hr => inv_respond (h.pushTxbuf b) (by simpa using hr) _ _
  | encFrame =>
    cases ht
    refine inv_accept h fun h hr => ?_
    split
    · exact inv_respond h hr _ _
    · exact inv_sendFrame h hr _
  | decReset => cases ht; exact inv_accept h fun h _ => inv_respond h.resetDecoder rfl _ _
  | clHandshake | clPrepare | clTransfer | clVerify =>
    cases ht; exact inv_accept h fun h hr => inv_phaseCommand h hr _ _
  | dbufClear =>
    cases ht
    exact inv_accept h fun h hr =>
      inv_respond (h.with_dbufLen (n := 0) (Nat.zero_le _) (h.dbuf.mono (by simp))) hr _ _
  | dbufPush b => cases ht; exact inv_accept h fun h hr => inv_respond (h.pushDbuf b) (by simpa using hr) _ _
  | rxByte b => cases ht; exact inv_onEvent h (decoderOnly_receiveByte b) (h.1.receiveByte b)
  | rxTimeout => cases ht; exact inv_onEvent h decoderOnly_receiveTimeout h.1.receiveTimeout
  | rxError => cases ht; exact inv_onEvent h (decoderOnly_rxFail _) (h.1.rxFail rfl)
  | sigReset => cases ht; exact inv_resetBlock h.1.params
  | sigAbort => cases ht; exact inv_onEvent h (decoderOnly_rxFail _) (h.1.rxFail rfl)

/-! ## The statements -/

/-- Settles O56: the default parameters are legal (R6). -/
theorem resetMeetsTheInvariant : Obligations.ResetMeetsTheInvariant :=
  inv_reset (p := Params.default) (by decide) 0 Link.fresh Ports.fresh

/-- Settles O57: a step takes its symbols, which the invariant does not speak of, and runs an operation, refuses or
waits. -/
theorem stepKeepsTheInvariant : Obligations.StepKeepsTheInvariant := by
  intro s t h hstep
  obtain ⟨i, rx, -, hexec⟩ | rfl | ⟨-, hr, cmd, ⟨i, hexec⟩ | rfl⟩ := step_cases hstep
  · exact exec_keeps_inv (h.frame _ _) hexec
  · exact h.frame s.link _
  · exact exec_keeps_inv (h.frame s.link _) hexec
  · exact inv_of_idle (h.1.frame _ _ _ _ _) rfl hr

end Sys2Proof.Machine
end

section
/-! SUPPORT. The remaining statements of the state family: what the block does while it is busy, who writes the checksum
registers, the fields of `STATUS` and the reset values (R23 to R26, R42, R44). -/

namespace Sys2Proof.Machine

/-! ## The command port -/

/-- A command is accepted or not (R24): its meaning is behind `accept`. -/
theorem exec_command {i : Instr} (hi : isCommand i = true) (s : State) : ∃ f, exec i s = .next (accept s f) := by
  cases i with
  | rxByte | rxTimeout | rxError | sigReset | sigAbort => cases hi
  | _ => exact ⟨_, rfl⟩

/-- An event or a signal leaves the words at the command port. -/
theorem exec_event_port_cmd {i : Instr} {s t : State} (hi : isCommand i = false) (h : exec i s = .next t) :
    t.port.cmd = s.port.cmd := by
  by_cases hreset : i = .sigReset
  · subst hreset; cases h; rfl
  · exact (HostSideKept.exec_event hi hreset h).cmd

/-- The three ways to wait take nothing but the sample of the wires (log entries 4 and 13). -/
theorem step_waits {s : State}
    (h : (s.dec.state.reading = true ∧ s.port.wires.headD 0 = 0 ∧ s.link.rx = []) ∨
      (s.dec.state.reading = false ∧ (s.port.wires.headD 0).getLsbD 0 = false ∧ s.progress ≠ .idle) ∨
      (s.dec.state.reading = false ∧ (s.port.wires.headD 0).getLsbD 0 = false ∧ s.port.cmd = [])) :
    step s = .next (takeWires s) := by
  have no_reset (hw : (s.port.wires.headD 0).getLsbD 0 = false) : decodeWires (wireSample s) ≠ .ok .sigReset :=
    fun h => Bool.false_ne_true (hw.symm.trans ((decodeWires_eq_sigReset_iff _).1 h))
  obtain ⟨hr, hw, hrx⟩ | ⟨hr, hw, hbusy⟩ | ⟨hr, hw, hcmd⟩ := h
  · have hin := nextInput_of_reading ((congrArg decodeWires hw).trans decodeWires_zero) hr
    exact step_of_wait (hin.trans (by simp only [nextEvent, takeWires_link, hrx]))
  · exact step_of_wait (nextInput_of_busy (no_reset hw) hr (by simp [State.busy, hbusy]))
  · cases hb : s.busy with
    | true => exact step_of_wait (nextInput_of_busy (no_reset hw) hr hb)
    | false =>
      have hin := nextInput_of_idle (no_reset hw) hr hb
      exact step_of_wait (hin.trans (by simp only [nextCommand, takeWires_port, hcmd]))

/-- Settles O7: a busy block accepts nothing, its steps are events, signals and waits, and a wait takes the sample of the
wires alone. -/
theorem blockWaitsWhileBusy : Obligations.BlockWaitsWhileBusy := by
  refine ⟨fun i s hi hbusy => ?_, fun s t hbusy hstep => ?_, fun s h => step_waits h⟩
  · obtain ⟨f, hf⟩ := exec_command hi s
    rw [hf, accept_of_busy (by simp [State.busy, hbusy])]
  · obtain ⟨i, rx, hi, hexec⟩ | rfl | ⟨hidle, -⟩ := step_cases hstep
    · exact (exec_event_port_cmd hi hexec :)
    · rfl
    · exact absurd hidle hbusy

/-! ## The checksum registers -/

/-- What a command keeps where it is accepted, it keeps. -/
theorem accept_keeps {α : Type} (g : State → α) {s : State} {f : State → State} (h : g (f s) = g s) :
    g (accept s f) = g s := by
  obtain ⟨-, heq⟩ | ⟨-, heq⟩ := accept_cases s f <;> rw [heq]
  exact h

@[simp] theorem answer_engine (v : Option Word) (s : State) : (answer v s).engine = s.engine := by
  cases v <;> rfl

@[simp] theorem pushTxbuf_engine (b : Byte) (s : State) : (pushTxbuf b s).engine = s.engine := by
  unfold pushTxbuf; split <;> rfl

@[simp] theorem pushDbuf_engine (b : Byte) (s : State) : (pushDbuf b s).engine = s.engine := by
  unfold pushDbuf; split <;> rfl

section
variable {s : State}

theorem sendFrame_engine (hno : ∀ n, nextWriteAnswer s.link ≠ .resetDuring n) (f : List Byte) :
    (sendFrame f s).engine = s.engine := by
  obtain ⟨n, -, -, heq⟩ | ⟨n, -, -, heq⟩ | ⟨-, heq⟩ | ⟨n, hreset, -⟩ := sendFrame_cases f s
  · rw [heq]; rfl
  · rw [heq]; rfl
  · rw [heq]; rfl
  · exact absurd hreset (hno n)

theorem execEncFrame_engine {t : State} (hno : ∀ n, nextWriteAnswer s.link ≠ .resetDuring n)
    (h : execEncFrame s = .next t) : t.engine = s.engine := by
  cases h
  refine accept_keeps State.engine ?_
  split
  · rfl
  · exact sendFrame_engine hno _

theorem execClOpen_engine {t : State} (hno : nextOpenAnswer s.link ≠ .resetDuring) (h : execClOpen s = .next t) :
    t.engine = s.engine := by
  cases h
  refine accept_keeps State.engine ?_
  split
  · rfl
  · split
    · rfl
    · rfl
    · exact absurd ‹_› hno

theorem execClClose_engine {t : State} (hno : nextCloseAnswer s.link ≠ .resetDuring) (h : execClClose s = .next t) :
    t.engine = s.engine := by
  cases h
  refine accept_keeps State.engine ?_
  split
  · rfl
  · split
    · rfl
    · exact absurd ‹_› hno

theorem execClRunSession_engine {t : State} (hno : ∀ n, nextWriteAnswer s.link ≠ .resetDuring n)
    (h : execClRunSession s = .next t) : t.engine = s.engine := by
  cases h
  refine accept_keeps State.engine ?_
  split
  · rfl
  · split
    · rfl
    · exact (HostSideKept.startPhase _ _ _).engine hno

theorem execDecStart_engine {t : State} (h : execDecStart s = .next t) : t.engine = s.engine := by
  cases h
  refine accept_keeps State.engine ?_
  split <;> rfl

/-- No operation outside the Checksum Engine writes its registers, reset apart (R366). -/
theorem exec_engine {i : Instr} {t : State} (hi : isChecksum i = false) (hne : i ≠ .sigReset)
    (hno : noResetDuringCall s) (h : exec i s = .next t) : t.engine = s.engine := by
  obtain ⟨hwrite, hopen, hclose⟩ := hno
  cases i with
  | crc16Init | crc16Update | crc16Read | crc32Init | crc32Update | crc32Read => cases hi
  | sigReset => exact absurd rfl hne
  | rxByte | rxTimeout | rxError | sigAbort => exact (HostSideKept.exec_event rfl hne h).engine hwrite
  | encFrame => exact execEncFrame_engine hwrite h
  | clOpen => exact execClOpen_engine hopen h
  | clClose => exact execClClose_engine hclose h
  | clRunSession => exact execClRunSession_engine hwrite h
  | decStart => exact execDecStart_engine h
  | clHandshake | clPrepare | clTransfer | clVerify =>
    cases h; exact accept_keeps State.engine ((HostSideKept.phaseCommand _ _).engine hwrite)
  | nop | txbufClear | decReset | dbufClear => cases h; exact accept_keeps State.engine rfl
  | rd | bufRead | logRead => cases h; exact accept_keeps State.engine (answer_engine _ _)
  | txbufPush b => cases h; exact accept_keeps State.engine (pushTxbuf_engine b s)
  | dbufPush b => cases h; exact accept_keeps State.engine (pushDbuf_engine b s)

end

/-- Settles O20: the other operations by `exec_engine`, those of the engine each by what it answers. -/
theorem checksumRegistersUntouched : Obligations.ChecksumRegistersUntouched := by
  refine ⟨fun i s t hi hne hno h => exec_engine hi hne hno h, fun s t h => ?_, fun s t h => ?_, fun s t h => ?_⟩
  · obtain h | h := h <;> cases h <;> exact accept_keeps State.engine rfl
  · obtain h | ⟨b, h⟩ := h <;> cases h <;> exact accept_keeps (fun s => s.engine.crc32) rfl
  · obtain h | ⟨b, h⟩ := h <;> cases h <;> exact accept_keeps (fun s => s.engine.crc16) rfl

/-! ## The fields of `STATUS` and the reset values -/

theorem getLsbD_append_of_le {w v i : Nat} (x : BitVec w) (y : BitVec v) (h : v ≤ i) :
    (x ++ y).getLsbD i = x.getLsbD (i - v) := by
  rw [BitVec.getLsbD_append, if_neg (by omega)]

theorem getLsbD_append_flagBit {w : Nat} (x : BitVec w) (b : Bool) : (x ++ flagBit b).getLsbD 0 = b := by
  rw [BitVec.getLsbD_append, if_pos (by decide)]
  cases b <;> rfl

/-- The fields of `STATUS` that are wider than a bit: each lies above the widths of the ones after it (R23). -/
theorem statusWord_fields (s : State) :
    (statusWord s).extractLsb' 0 3 = s.dec.state.code ∧ (statusWord s).extractLsb' 4 3 = s.cl.state.code ∧
      (statusWord s).extractLsb' 8 8 = s.dec.err.code ∧ (statusWord s).extractLsb' 16 8 = s.lastErr.code ∧
      (statusWord s).extractLsb' 24 3 = failedPhaseCode s.cl.failedPhase := by
  unfold statusWord
  refine ⟨?_, ?_, ?_, ?_, ?_⟩
  all_goals
    repeat rw [BitVec.extractLsb'_append_eq_of_le (by decide)]
    exact BitVec.extractLsb'_append_eq_right

/-- The flags of `STATUS` (R23). -/
theorem statusWord_flags (s : State) :
    (statusWord s).getLsbD 3 = s.dec.esc ∧ (statusWord s).getLsbD 7 = s.busy ∧ (statusWord s).getLsbD 27 = txOvf s ∧
      (statusWord s).getLsbD 28 = dbufOvf s ∧ (statusWord s).getLsbD 29 = s.cl.logOvf := by
  unfold statusWord
  refine ⟨?_, ?_, ?_, ?_, ?_⟩
  all_goals
    repeat rw [getLsbD_append_of_le _ _ (by decide)]
    exact getLsbD_append_flagBit _ _

/-- The two reserved bits of `STATUS` (R23). -/
theorem statusWord_reserved (s : State) : (statusWord s).extractLsb' 30 2 = 0 := by
  unfold statusWord
  repeat rw [BitVec.extractLsb'_append_eq_of_le (by decide)]
  rfl

/-- Settles O12: the fields, the flags and the reserved bits, and the codes by evaluation. -/
theorem statusWordFields : Obligations.StatusWordFields := by
  refine ⟨fun s => ?_, rfl, rfl, rfl⟩
  obtain ⟨hrx, hcl, hrxErr, hlastErr, hfailed⟩ := statusWord_fields s
  obtain ⟨hesc, hbusy, htxOvf, hdbufOvf, hlogOvf⟩ := statusWord_flags s
  refine ⟨hrx, hesc, hcl, hbusy, hrxErr, hlastErr, ?_, htxOvf, hdbufOvf, hlogOvf, statusWord_reserved s⟩
  rw [hfailed]
  cases s.cl.failedPhase <;> rfl

/-- Settles O53: each of the 24 registers by its number. -/
theorem resetValues : Obligations.ResetValues := by
  refine ⟨fun r hr => ?_, rfl, rfl, rfl, rfl, rfl, rfl, rfl, Memory.readAt_nil⟩
  interval_cases r <;> rfl

end Sys2Proof.Machine
end

section
/-! SUPPORT. What an operation does outside the registers: the buffers it may write (R60, R73), the calls to the link
(R61, R67) and the parameters (R351); and from that the statements of the memory family. -/

namespace Sys2Proof.Machine

/-! ## The effects of an operation -/

/-- From `s` to `t` the link has only been called, the parameters have stayed, and, unless reset may have come (`R`), a
buffer that may not be written (outside `W`) keeps its bytes, except that RXBUF may be forgotten (R34). -/
structure Effects (W : Space → Prop) (R : Prop) (s t : State) : Prop where
  tx : s.link.tx <+: t.link.tx
  calls : s.link.calls <+: t.link.calls
  params : t.params = s.params
  buffers : ¬ R → ∀ sp, ¬ W sp → ∀ k, k < 2 ^ 32 →
    t.mem.readAt (Memory.addr sp k) = s.mem.readAt (Memory.addr sp k) ∨
      (sp = .rxbuf ∧ t.mem.readAt (Memory.addr sp k) = none)

namespace Effects

variable {W : Space → Prop} {R : Prop} {s t u : State}

/-! ### The kinds of change -/

theorem trans (hst : Effects W R s t) (htu : Effects W R t u) : Effects W R s u where
  tx := hst.tx.trans htu.tx
  calls := hst.calls.trans htu.calls
  params := htu.params.trans hst.params
  buffers hR sp hW k hk := by
    obtain heq | hforgotten := htu.buffers hR sp hW k hk
    · rw [heq]; exact hst.buffers hR sp hW k hk
    · exact .inr hforgotten

/-- A call to the link. -/
theorem call (htx : s.link.tx <+: t.link.tx) (hcalls : s.link.calls <+: t.link.calls) (hm : t.mem = s.mem)
    (hp : t.params = s.params) : Effects W R s t :=
  ⟨htx, hcalls, hp, fun _ _ _ _ _ => .inl (by rw [hm])⟩

/-- A change of registers and ports. -/
theorem registers (hl : t.link = s.link) (hm : t.mem = s.mem) (hp : t.params = s.params) : Effects W R s t :=
  call (by rw [hl]) (by rw [hl]) hm hp

theorem then_registers (h : Effects W R s t) (hl : u.link = t.link) (hm : u.mem = t.mem) (hp : u.params = t.params) :
    Effects W R s u :=
  h.trans (registers hl hm hp)

/-- A write inside a buffer that may be written. -/
theorem write {sp : Space} {i : Nat} {bs : List Byte} (hW : W sp) (hi : i + bs.length ≤ 2 ^ 32) (hl : t.link = s.link)
    (hm : t.mem = s.mem.writeList (Memory.addr sp i) bs) (hp : t.params = s.params) : Effects W R s t where
  tx := by rw [hl]
  calls := by rw [hl]
  params := hp
  buffers _ sp' hW' k hk := by
    have hsp : sp' ≠ sp := fun e => hW' (e ▸ hW)
    exact .inl (by rw [hm, Memory.readAt_writeList_other _ _ _ _ hsp hi hk])

/-- RXBUF forgotten (R34, R182, R192). -/
theorem forget (hl : t.link = s.link) (hm : t.mem = s.mem.forget .rxbuf) (hp : t.params = s.params) :
    Effects W R s t where
  tx := by rw [hl]
  calls := by rw [hl]
  params := hp
  buffers _ sp _ k hk := by
    rw [hm]
    by_cases hsp : sp = .rxbuf
    · subst hsp
      exact .inr ⟨rfl, by rw [Memory.readAt_forget, if_pos (by simp only [Memory.addr]; omega)]⟩
    · exact .inl (Memory.readAt_forget_other _ _ hsp hk)

/-- Reset, which keeps the link and the parameters (R350, R351). -/
theorem resetBlock (hR : R) : Effects W R s (resetBlock s) :=
  ⟨⟨[], List.append_nil _⟩, ⟨[], List.append_nil _⟩, rfl, fun h => absurd hR h⟩

/-! ### The shared operations -/

theorem respond (e : ErrKind) (v : Word) : Effects W R s (respond e v s) := registers rfl rfl rfl

theorem refuse : Effects W R s (refuse s) := respond _ _

theorem answer (v : Option Word) : Effects W R s (answer v s) := by
  cases v <;> exact respond _ _

theorem phaseFailed (p : Phase) (b : Bool) (e : ErrKind) : Effects W R s (phaseFailed p b e s) := registers rfl rfl rfl

theorem logAppend (r : LogRecord) : Effects W R s (logAppend r s) := registers (by simp) (by simp) (by simp)

theorem awaitResponse (p : Phase) (b : Bool) (k : Nat) : Effects W R s (awaitResponse p b k s) := forget rfl rfl rfl

theorem rxFail (e : ErrKind) : Effects W R s (rxFail e s) := forget rfl rfl rfl

theorem txWrite (bs : List Byte) : Effects W R s (txWrite bs s) :=
  call ⟨_, rfl⟩ ⟨_, rfl⟩ rfl rfl

theorem txFlush : Effects W R s (txFlush s) := call ⟨[], List.append_nil _⟩ ⟨_, rfl⟩ rfl rfl

theorem linkOpen : Effects W R s (linkOpen s) := call ⟨[], List.append_nil _⟩ ⟨_, rfl⟩ rfl rfl

theorem linkClose : Effects W R s (linkClose s) := call ⟨[], List.append_nil _⟩ ⟨_, rfl⟩ rfl rfl

/-- A command that is not accepted has no effect (R24). -/
theorem accept {f : State → State} (hf : Effects W R s (f s)) : Effects W R s (accept s f) := by
  obtain ⟨-, heq⟩ | ⟨-, heq⟩ := accept_cases s f <;> rw [heq]
  · exact registers rfl rfl rfl
  · exact hf

theorem pushTxbuf (hW : W .txbuf) (b : Byte) : Effects W R s (pushTxbuf b s) := by
  unfold Machine.pushTxbuf
  split
  · exact write (i := s.txLen.toNat) (bs := [b]) hW (by simp only [List.length_singleton]; omega) rfl rfl rfl
  · exact registers rfl rfl rfl

theorem pushDbuf (hW : W .dbuf) (b : Byte) : Effects W R s (pushDbuf b s) := by
  unfold Machine.pushDbuf
  split
  · exact write (i := s.dbufLen.toNat) (bs := [b]) hW (by simp only [List.length_singleton]; omega) rfl rfl rfl
  · exact registers rfl rfl rfl

theorem loadRequest (hW : W .txbuf) (p : Phase) {m : List Byte} (hm : m.length ≤ 1024) :
    Effects W R s (loadRequest p m s) :=
  write (i := 0) (bs := m) hW (by omega) rfl rfl rfl

/-! ### The decoder -/

theorem receiveTimeout : Effects W R s (receiveTimeout s) := by
  unfold Machine.receiveTimeout
  split <;> exact rxFail _

theorem storePayload (hW : W .rxbuf) (v : Byte) : Effects W R s (storePayload v s) := by
  have hi : s.dec.cnt.toNat + [v].length ≤ 2 ^ 32 := by simp only [List.length_singleton]; omega
  unfold Machine.storePayload
  dsimp only
  split <;> exact write hW hi rfl rfl rfl

theorem rxPayloadByte (hW : W .rxbuf) (b : Byte) : Effects W R s (rxPayloadByte b s) := by
  unfold Machine.rxPayloadByte
  split
  · split
    · exact storePayload hW _
    · exact rxFail _
  · split
    · exact registers rfl rfl rfl
    · split
      · exact rxFail _
      · exact storePayload hW _

theorem rxSyncing (b : Byte) : Effects W R s (rxSyncing b s) := by
  unfold Machine.rxSyncing
  split
  · exact registers rfl rfl rfl
  · split <;> exact registers rfl rfl rfl

theorem rxLength (b : Byte) : Effects W R s (rxLength b s) := by
  unfold Machine.rxLength
  split
  · exact registers rfl rfl rfl
  · dsimp only
    split
    · exact forget rfl rfl rfl
    · split <;> exact registers rfl rfl rfl

theorem rxCrcByte (b : Byte) : Effects W R s (rxCrcByte b s) := by
  unfold Machine.rxCrcByte
  split <;> exact registers rfl rfl rfl

theorem rxEnd (b : Byte) : Effects W R s (rxEnd b s) := by
  unfold Machine.rxEnd
  split
  · exact rxFail _
  · split
    · exact rxFail _
    · exact registers rfl rfl rfl

/-- A byte is stored in `ReadingPayload` only (R186). -/
theorem receiveByte (hW : s.dec.state = .readingPayload → W .rxbuf) (b : Byte) :
    Effects W R s (receiveByte b s) := by
  unfold Machine.receiveByte
  split
  · exact rxSyncing b
  · exact rxLength b
  · exact rxPayloadByte (hW ‹_›) b
  · exact rxCrcByte b
  · exact rxEnd b
  all_goals exact registers rfl rfl rfl

/-! ### An exchange -/

section
variable (hreset : ∀ n, nextWriteAnswer s.link = .resetDuring n → R)
include hreset

theorem sendFrame (f : List Byte) : Effects W R s (sendFrame f s) := by
  have hwritten : Effects W R s (Machine.txWrite f s) := txWrite f
  have hflushed := hwritten.trans txFlush
  obtain ⟨n, -, -, heq⟩ | ⟨n, -, -, heq⟩ | ⟨-, heq⟩ | ⟨n, hn, heq⟩ := sendFrame_cases f s
  · rw [heq]; exact hflushed.trans (respond _ _)
  · rw [heq]; exact hflushed.trans (respond _ _)
  · rw [heq]; exact hwritten.trans (respond _ _)
  · rw [heq]; exact hwritten.trans (resetBlock (hreset n hn))

theorem sendRequest (p : Phase) (b : Bool) (m : List Byte) : Effects W R s (sendRequest p b m s) := by
  have hwritten : Effects W R s (Machine.txWrite (frameBytes m) s) := txWrite _
  have hflushed := hwritten.trans txFlush
  obtain ⟨n, -, -, heq⟩ | ⟨n, -, -, heq⟩ | ⟨-, heq⟩ | ⟨n, hn, heq⟩ := sendRequest_cases p b m s
  · rw [heq]; exact (hflushed.trans (logAppend _)).trans (awaitResponse p b 1)
  · rw [heq]; exact (hflushed.trans (logAppend _)).trans (phaseFailed p b _)
  · rw [heq]; exact (hwritten.trans (logAppend _)).trans (phaseFailed p b _)
  · rw [heq]; exact hwritten.trans (resetBlock (hreset n hn))

theorem startPhase (hW : W .txbuf) (p : Phase) (b : Bool) (n : Word) : Effects W R s (startPhase p b n s) := by
  obtain ⟨-, heq⟩ | ⟨-, hlen, heq⟩ := startPhase_cases p b n s
  · rw [heq]; exact phaseFailed p b _
  · rw [heq]; exact (loadRequest hW p hlen).trans (sendRequest (by simpa using hreset) p b _)

theorem phaseCommand (hW : W .txbuf) (p : Phase) (n : Word) : Effects W R s (phaseCommand p n s) := by
  obtain ⟨-, heq⟩ | ⟨-, heq⟩ := phaseCommand_cases p n s
  · rw [heq]; exact startPhase hreset hW p false n
  · rw [heq]; exact refuse

theorem continueSession (hW : W .txbuf) (p : Phase) (b : Bool) : Effects W R s (continueSession p b s) := by
  obtain ⟨-, heq⟩ | ⟨-, -, heq⟩ | ⟨-, -, heq⟩ | ⟨-, -, heq⟩ | ⟨-, -, heq⟩ := continueSession_cases p b s
  · rw [heq]; exact respond _ _
  · rw [heq]; exact startPhase hreset hW _ _ _
  · rw [heq]; exact startPhase hreset hW _ _ _
  · rw [heq]; exact startPhase hreset hW _ _ _
  · rw [heq]; exact registers rfl rfl rfl

end

/-- A decoded response leaves its message in ACKMSG; `MsgDec` bounds its length (R60, R262). -/
theorem recordResponse (hW : W .ackmsg) {r : Response} (hfits : responseFits r = true) :
    Effects W R s (recordResponse r s) := by
  unfold Machine.recordResponse
  unfold responseFits at hfits
  split
  · next ok msg hbody =>
    have hmsg : msg.length ≤ 1024 := by simpa [hbody] using hfits
    exact write (i := 0) hW (by omega) rfl rfl rfl
  · exact registers rfl rfl rfl

/-- A successful handshake leaves the version in BOOTVER (R263). -/
theorem recordSuccess (hW : W .bootver) (p : Phase) {r : Response} (hfits : responseFits r = true) :
    Effects W R s (recordSuccess p r.body s) := by
  unfold Machine.recordSuccess
  unfold responseFits at hfits
  split
  · next bv sc fp hbody =>
    have hbv : bv.length ≤ 1024 := by simpa [hbody] using hfits
    exact write (i := 0) hW (by omega) rfl rfl rfl
  · exact registers rfl rfl rfl
  · exact registers rfl rfl rfl

section
variable (hreset : ∀ n, nextWriteAnswer s.link = .resetDuring n → R)
include hreset

theorem judgeResponse (htxbuf : W .txbuf) (hbootver : W .bootver) (hackmsg : W .ackmsg) (p : Phase) (b : Bool) :
    Effects W R s (judgeResponse p b s) := by
  obtain ⟨-, heq⟩ | ⟨r, hm, -, heq⟩ | ⟨r, hm, -, -, heq⟩ | ⟨r, hm, -, -, heq⟩ := judgeResponse_cases p b s
  · rw [heq]; exact phaseFailed p b _
  · rw [heq]; exact (recordResponse hackmsg (responseFits_of_msgDec hm)).trans (phaseFailed p b _)
  · rw [heq]; exact (recordResponse hackmsg (responseFits_of_msgDec hm)).trans (phaseFailed p b _)
  · rw [heq]
    have hfits := responseFits_of_msgDec hm
    exact ((recordResponse hackmsg hfits).trans (recordSuccess hbootver p hfits)).trans
      (continueSession (by simpa using hreset) htxbuf p b)

/-- Only a complete frame is judged, so only then does the end of a decode attempt write a buffer (R261, R262). -/
theorem finishExchange (hW : s.dec.state = .complete → W .txbuf ∧ W .bootver ∧ W .ackmsg) (p : Phase) (b : Bool)
    (k : Nat) : Effects W R s (finishExchange p b k s) := by
  obtain ⟨hcomplete, heq⟩ | ⟨-, -, heq⟩ | ⟨-, -, -, heq⟩ := finishExchange_cases p b k s
  · rw [heq]
    obtain ⟨htxbuf, hbootver, hackmsg⟩ := hW hcomplete
    exact judgeResponse hreset htxbuf hbootver hackmsg p b
  · rw [heq]; exact phaseFailed p b _
  · rw [heq]; exact awaitResponse p b (k + 1)

theorem afterEvent (hW : ∀ p b k, s.progress = .exchange p b k → s.dec.state = .complete →
    W .txbuf ∧ W .bootver ∧ W .ackmsg) : Effects W R s (afterEvent s) := by
  obtain ⟨-, heq⟩ | ⟨-, -, heq⟩ | ⟨-, -, heq⟩ | ⟨p, b, k, -, hp, heq⟩ := afterEvent_cases s
  · rw [heq]; exact registers rfl rfl rfl
  · rw [heq]; exact registers rfl rfl rfl
  · rw [heq]
    obtain ⟨-, heq⟩ | ⟨-, -, heq⟩ | ⟨-, -, heq⟩ := respondDecode_cases s <;> rw [heq] <;> exact respond _ _
  · rw [heq]; exact finishExchange hreset (hW p b k hp) p b k

theorem onEvent {f : State → State} (hf : DecoderOnly f) (hfs : Effects W R s (f s))
    (hW : ∀ p b k, s.progress = .exchange p b k → (f s).dec.state = .complete →
      W .txbuf ∧ W .bootver ∧ W .ackmsg) : Effects W R s (onEvent f s) := by
  obtain ⟨-, heq⟩ | ⟨-, heq⟩ := onEvent_cases f s
  · obtain ⟨hlink, hprogress⟩ : (f s).link = s.link ∧ (f s).progress = s.progress := by
      obtain ⟨d, m, k, heq⟩ := hf s
      rw [heq]; exact ⟨rfl, rfl⟩
    rw [heq]
    exact hfs.trans (afterEvent (hlink.symm ▸ hreset) fun p b k hp => hW p b k (hprogress ▸ hp))
  · rw [heq]; exact registers rfl rfl rfl

end

end Effects

/-! ## The effects of each operation -/

/-- The buffers an operation may write in a state (R60, R73). -/
def mayWrite (i : Instr) (s : State) : Space → Prop
  | .dbuf => ∃ b, i = .dbufPush b
  | .txbuf => (∃ b, i = .txbufPush b) ∨ isPhaseCommand i = true ∨ ∃ p b k, s.progress = .exchange p b k
  | .bootver | .ackmsg => (∃ p b k, s.progress = .exchange p b k) ∧ ∃ b, i = .rxByte b
  | .rxbuf => s.dec.state = .readingPayload ∧ ∃ b, i = .rxByte b

/-- Reset is the operation, or may come during a call of it (R350, R352). -/
def mayReset (i : Instr) (s : State) : Prop := i = .sigReset ∨ ¬ noResetDuringCall s

section
variable {i : Instr} {s t : State}

theorem mayReset_of_write (n : Nat) (h : nextWriteAnswer s.link = .resetDuring n) : mayReset i s :=
  .inr fun ⟨hwrite, _, _⟩ => hwrite n h

theorem mayReset_of_open (h : nextOpenAnswer s.link = .resetDuring) : mayReset i s :=
  .inr fun ⟨_, hopen, _⟩ => hopen h

theorem mayReset_of_close (h : nextCloseAnswer s.link = .resetDuring) : mayReset i s :=
  .inr fun ⟨_, _, hclose⟩ => hclose h

theorem receiveTimeout_dec_state (s : State) : (receiveTimeout s).dec.state = .failed := by
  unfold receiveTimeout
  split <;> rfl

theorem effects_execRxByte {b : Byte} (h : execRxByte b s = .next t) :
    Effects (mayWrite (.rxByte b) s) (mayReset (.rxByte b) s) s t := by
  cases h
  refine .onEvent mayReset_of_write (decoderOnly_receiveByte b) (.receiveByte (fun hs => ⟨hs, b, rfl⟩) b) ?_
  intro p session k hp _
  have hexchange : ∃ p b k, s.progress = .exchange p b k := ⟨p, session, k, hp⟩
  exact ⟨.inr (.inr hexchange), ⟨hexchange, b, rfl⟩, ⟨hexchange, b, rfl⟩⟩

/-- An event or an abort that fails the decoder leaves no frame to judge. -/
theorem Effects.onEvent_of_failed {W : Space → Prop} {f : State → State} (hf : DecoderOnly f)
    (hfs : Effects W (mayReset i s) s (f s)) (hfailed : (f s).dec.state = .failed) :
    Effects W (mayReset i s) s (Machine.onEvent f s) :=
  .onEvent mayReset_of_write hf hfs fun _ _ _ _ hcomplete => absurd (hfailed.symm.trans hcomplete) nofun

theorem effects_execClOpen (h : execClOpen s = .next t) : Effects (mayWrite i s) (mayReset i s) s t := by
  cases h
  refine .accept ?_
  split
  · exact .refuse
  · split
    · exact Effects.linkOpen.then_registers rfl rfl rfl
    · exact Effects.linkOpen.trans (.respond _ _)
    · exact Effects.linkOpen.trans (.resetBlock (mayReset_of_open ‹_›))

theorem effects_execClClose (h : execClClose s = .next t) : Effects (mayWrite i s) (mayReset i s) s t := by
  cases h
  refine .accept ?_
  split
  · exact .respond _ _
  · split
    · exact Effects.linkClose.then_registers rfl rfl rfl
    · exact Effects.linkClose.trans (.resetBlock (mayReset_of_close ‹_›))

theorem effects_execClRunSession (h : execClRunSession s = .next t) :
    Effects (mayWrite .clRunSession s) (mayReset .clRunSession s) s t := by
  cases h
  refine .accept ?_
  split
  · exact .refuse
  · split
    · exact .phaseFailed _ _ _
    · exact .startPhase mayReset_of_write (.inr (.inl rfl)) _ _ _

theorem effects_execEncFrame (h : execEncFrame s = .next t) : Effects (mayWrite i s) (mayReset i s) s t := by
  cases h
  refine .accept ?_
  split
  · exact .respond _ _
  · exact .sendFrame mayReset_of_write _

theorem effects_execDecStart (h : execDecStart s = .next t) : Effects (mayWrite i s) (mayReset i s) s t := by
  cases h
  refine .accept ?_
  split
  · exact .refuse
  · exact .registers rfl rfl rfl

/-- Every operation calls the link, keeps the parameters, and writes the buffers that it owns. -/
theorem exec_effects (h : exec i s = .next t) : Effects (mayWrite i s) (mayReset i s) s t := by
  cases i with
  | sigReset => cases h; exact .resetBlock (.inl rfl)
  | rxByte b => exact effects_execRxByte h
  | rxTimeout =>
    cases h; exact .onEvent_of_failed decoderOnly_receiveTimeout .receiveTimeout (receiveTimeout_dec_state s)
  | rxError | sigAbort => cases h; exact .onEvent_of_failed (decoderOnly_rxFail _) (.rxFail _) rfl
  | clOpen => exact effects_execClOpen h
  | clClose => exact effects_execClClose h
  | clRunSession => exact effects_execClRunSession h
  | encFrame => exact effects_execEncFrame h
  | decStart => exact effects_execDecStart h
  | decReset => cases h; exact .accept (.forget rfl rfl rfl)
  | clHandshake | clPrepare | clTransfer | clVerify =>
    cases h; exact .accept (.phaseCommand mayReset_of_write (.inr (.inl rfl)) _ _)
  | txbufPush b => cases h; exact .accept ((Effects.pushTxbuf (.inl ⟨b, rfl⟩) b).trans (.respond _ _))
  | dbufPush b => cases h; exact .accept ((Effects.pushDbuf ⟨b, rfl⟩ b).trans (.respond _ _))
  | rd | bufRead | logRead => cases h; exact .accept (.answer _)
  | nop | crc16Init | crc16Update | crc16Read | crc32Init | crc32Update | crc32Read | txbufClear | dbufClear =>
    cases h; exact .accept (.registers rfl rfl rfl)

end

/-! ## The statements -/

/-- Settles O58: what a step takes from its ports is neither sent nor called, and the operation it runs is covered by
`exec_effects`. -/
theorem transmitStreamOnlyGrows : Obligations.TransmitStreamOnlyGrows := by
  intro s t hstep
  suffices s.link.tx <+: t.link.tx ∧ s.link.calls <+: t.link.calls ∧ t.params = s.params by
    obtain ⟨⟨b, hb⟩, ⟨c, hc⟩, hp⟩ := this
    exact ⟨⟨b, hb.symm⟩, ⟨c, hc.symm⟩, hp⟩
  obtain ⟨i, rx, -, hexec⟩ | rfl | ⟨-, -, cmd, ⟨i, hexec⟩ | rfl⟩ := step_cases hstep
  · obtain ⟨htx, hcalls, hp, -⟩ := exec_effects hexec
    exact ⟨htx, hcalls, hp⟩
  · exact ⟨⟨[], List.append_nil _⟩, ⟨[], List.append_nil _⟩, rfl⟩
  · obtain ⟨htx, hcalls, hp, -⟩ := exec_effects hexec
    exact ⟨htx, hcalls, hp⟩
  · exact ⟨⟨[], List.append_nil _⟩, ⟨[], List.append_nil _⟩, rfl⟩

/-- Settles O59: each premise says that the operation may not write the buffer of its clause. -/
theorem buffersWrittenOnlyByTheirOwners : Obligations.BuffersWrittenOnlyByTheirOwners := by
  intro i s t k hne hno hk hexec
  have no_reset : ¬ mayReset i s := by simp [mayReset, hne, hno]
  have buffer (sp : Space) (hW : ¬ mayWrite i s sp) := (exec_effects hexec).buffers no_reset sp hW k hk
  have kept (sp : Space) (hsp : sp ≠ .rxbuf) (hW : ¬ mayWrite i s sp) :=
    (buffer sp hW).resolve_right fun h => hsp h.1
  refine ⟨fun hpush => ?_, fun hpush hphase hidle => ?_, fun hevent => ?_, fun hevent => ?_⟩
  · exact kept .dbuf nofun fun ⟨b, hi⟩ => hpush b hi
  · refine kept .txbuf nofun ?_
    rintro (⟨b, hi⟩ | hi | ⟨p, b, a, hp⟩)
    · exact hpush b hi
    · simp [hphase] at hi
    · exact hidle p b a hp
  · have hW : ¬ ((∃ p b k, s.progress = .exchange p b k) ∧ ∃ b, i = .rxByte b) := by
      rintro ⟨⟨p, b, a, hp⟩, c, hi⟩
      exact hevent.elim (fun h => h p b a hp) (fun h => h c hi)
    exact ⟨kept .bootver nofun hW, kept .ackmsg nofun hW⟩
  · refine (buffer .rxbuf ?_).imp_right And.right
    rintro ⟨hs, b, hi⟩
    exact hevent.elim (fun h => h hs) (fun h => h b hi)

end Sys2Proof.Machine
end

section
/-! SUPPORT. The port encodings (R100 to R106): what each field of a word reads after it has been put together, the
round trip of decoder and encoder, the form of each command word, and from them the statements on the command port. -/

namespace Sys2Proof.Machine

open Sys2Proof.Laws.EncodedPort (opField_cmdWord)

/-! ## Fields -/

@[simp] theorem argField_cmdWord (op : BitVec 8) (arg : Word) : argField (cmdWord op arg) = arg :=
  BitVec.extractLsb'_append_eq_right

@[simp] theorem argByte_byteArg (b : BitVec 8) : argByte (byteArg b) = b :=
  (BitVec.extractLsb'_setWidth_of_le (by decide)).trans BitVec.extractLsb'_eq_self

@[simp] theorem argByte_setWidth_append (f i : BitVec 8) : argByte ((f ++ i).setWidth 32) = i :=
  (BitVec.extractLsb'_setWidth_of_le (by decide)).trans BitVec.extractLsb'_append_eq_right

@[simp] theorem argSelector_setWidth_append (f i : BitVec 8) : argSelector ((f ++ i).setWidth 32) = f :=
  (BitVec.extractLsb'_setWidth_of_le (by decide)).trans BitVec.extractLsb'_append_eq_left

@[simp] theorem argSpace_append (s : BitVec 8) (i : BitVec 24) : argSpace (s ++ i) = s :=
  BitVec.extractLsb'_append_eq_left

@[simp] theorem argIndex_append (s : BitVec 8) (i : BitVec 24) : argIndex (s ++ i) = i :=
  BitVec.extractLsb'_append_eq_right

/-- A command word is its two fields (R101). -/
theorem cmdWord_fields (w : CmdWord) : cmdWord (opField w) (argField w) = w :=
  (BitVec.extractLsb'_append_extractLsb'_eq_extractLsb' rfl).trans BitVec.extractLsb'_eq_self

theorem cmdWord_injective {op op' : BitVec 8} {arg arg' : Word} (h : cmdWord op arg = cmdWord op' arg') :
    op = op' ∧ arg = arg' := by
  have hop := congrArg opField h
  have harg := congrArg argField h
  rw [opField_cmdWord, opField_cmdWord] at hop
  rw [argField_cmdWord, argField_cmdWord] at harg
  exact ⟨hop, harg⟩

theorem decodeCmd_cmdWord (op : BitVec 8) (arg : Word) : decodeCmd (cmdWord op arg) = decodeOp op arg := by
  rw [decodeCmd, opField_cmdWord, argField_cmdWord]

/-! ## The round trip -/

/-- A receive symbol with bit 8 clear is its byte (R104). -/
theorem decodeRx_of_bit8 {e : RxSymbol} (h : e.getLsbD 8 = false) : decodeRx e = .ok (.rxByte (e.extractLsb' 0 8)) :=
  if_pos (BitVec.toNat_lt_of_msb_false ((BitVec.msb_eq_getLsbD_last e).trans h))

/-- The symbols above the two events are reserved (R104). -/
theorem decodeRx_of_reserved {e : RxSymbol} (h : 0x102 ≤ e.toNat) : decodeRx e = .error (.reservedSymbol e) := by
  rw [decodeRx, if_neg (by omega), if_neg (by omega), if_neg (by omega)]

theorem decodeRx_setWidth (b : Byte) : decodeRx (b.setWidth 9) = .ok (.rxByte b) := by
  have hbit : (b.setWidth 9).getLsbD 8 = false := by simp
  have hbyte : (b.setWidth 9).extractLsb' 0 8 = b :=
    (BitVec.extractLsb'_setWidth_of_le (by decide)).trans BitVec.extractLsb'_eq_self
  rw [decodeRx_of_bit8 hbit, hbyte]

/-- A command goes by its opcode and reads its operand back; an event or a signal that is not a byte is one fixed
symbol. -/
theorem decode_encode (i : Instr) : decode (encode i) = .ok i := by
  cases i with
  | rxByte b => exact decodeRx_setWidth b
  | rxTimeout | rxError | sigReset | sigAbort => rfl
  | rd | bufRead | logRead | crc16Update | crc32Update | txbufPush | dbufPush =>
    exact (decodeCmd_cmdWord _ _).trans (by simp [decodeOp])
  | _ => exact decodeCmd_cmdWord _ _

theorem encode_injective {i j : Instr} (h : encode i = encode j) : i = j :=
  Except.ok.inj ((decode_encode i).symm.trans ((congrArg decode h).trans (decode_encode j)))

/-- Settles O1: fields read back what was put together, one constructor at a time. -/
theorem decodeOfEncode : Obligations.DecodeOfEncode := decode_encode

/-! ## The form of a command word -/

/-- What an opcode says of the operand field: the operation it makes of it, and the bits `m` of it that the operation
uses (R101, R103). -/
structure CommandForm (op : BitVec 8) (form : Word → Instr) (m : Word) : Prop where
  decodes : ∀ arg, decodeOp op arg = .ok (form arg)
  encodes : ∀ arg, encode (form arg) = .cmd (cmdWord op (arg &&& m))
  used : ∀ arg, usedBits (form arg) = cmdWord 0xFF m

/-- The low `v` bits of a word, zero-extended. -/
theorem setWidth_setWidth_eq_and {w v : Nat} (x : BitVec w) :
    (x.setWidth v).setWidth w = x &&& (BitVec.allOnes v).setWidth w := by
  ext i hi
  simp [hi, Bool.and_comm]

theorem byteArg_argByte (arg : Word) : byteArg (argByte arg) = arg &&& 0xFF := by
  rw [argByte, byteArg, ← BitVec.setWidth_eq_extractLsb' (by decide)]
  exact setWidth_setWidth_eq_and arg

theorem selector_append_byte (arg : Word) : (argSelector arg ++ argByte arg).setWidth 32 = arg &&& 0xFFFF := by
  have hlow : argSelector arg ++ argByte arg = arg.setWidth 16 :=
    (BitVec.extractLsb'_append_extractLsb'_eq_extractLsb' rfl).trans (BitVec.setWidth_eq_extractLsb' (by decide)).symm
  rw [hlow]
  exact setWidth_setWidth_eq_and arg

theorem space_append_index (arg : Word) : argSpace arg ++ argIndex arg = arg :=
  (BitVec.extractLsb'_append_extractLsb'_eq_extractLsb' rfl).trans BitVec.extractLsb'_eq_self

theorem and_word_ones (arg : Word) : arg &&& 0xFFFFFFFF = arg := BitVec.and_allOnes

/-- A command without an operand. -/
theorem exists_form_plain {op : BitVec 8} (i : Instr) (hd : ∀ arg, decodeOp op arg = .ok i)
    (he : encode i = .cmd (cmdWord op 0)) (hu : usedBits i = 0xFF00000000) : ∃ form m, CommandForm op form m :=
  ⟨fun _ => i, 0, hd, fun _ => by simp [he], fun _ => hu⟩

/-- A command with one byte as its operand. -/
theorem exists_form_byte {op : BitVec 8} (f : BitVec 8 → Instr) (hd : ∀ arg, decodeOp op arg = .ok (f (argByte arg)))
    (he : ∀ b, encode (f b) = .cmd (cmdWord op (byteArg b))) (hu : ∀ b, usedBits (f b) = 0xFF000000FF) :
    ∃ form m, CommandForm op form m :=
  ⟨fun arg => f (argByte arg), 0xFF, hd, fun arg => by rw [he, byteArg_argByte], fun _ => hu _⟩

theorem exists_form_bufRead : ∃ form m, CommandForm 0x02 form m :=
  ⟨fun arg => .bufRead (argSpace arg) (argIndex arg), 0xFFFFFFFF, fun _ => rfl,
    fun arg => by rw [encode, space_append_index, and_word_ones], fun _ => rfl⟩

theorem exists_form_logRead : ∃ form m, CommandForm 0x03 form m :=
  ⟨fun arg => .logRead (argByte arg) (argSelector arg), 0xFFFF, fun _ => rfl,
    fun arg => by rw [encode, selector_append_byte], fun _ => rfl⟩

theorem exists_form_clPrepare : ∃ form m, CommandForm 0x43 form m :=
  ⟨.clPrepare, 0xFFFFFFFF, fun _ => rfl, fun arg => by rw [encode, and_word_ones], fun _ => rfl⟩

/-- The opcodes of R100 are those that R106 leaves. -/
theorem opcode_mem_of_not_reserved {op : BitVec 8} (h : ¬ reservedOpcode op.toNat) :
    op ∈ ([0x00, 0x01, 0x02, 0x03, 0x10, 0x11, 0x12, 0x18, 0x19, 0x1A, 0x20, 0x21, 0x22, 0x30, 0x31, 0x40, 0x41, 0x42,
      0x43, 0x44, 0x45, 0x46, 0x48, 0x49] : List (BitVec 8)) := by
  unfold reservedOpcode at h
  have := op.isLt
  simp only [List.mem_cons, List.not_mem_nil, or_false, ← BitVec.toNat_inj, BitVec.ofNat_eq_ofNat,
    BitVec.toNat_ofNat]
  omega

/-- Every opcode that is not reserved has its form: the `cmd` rows of R100. -/
theorem exists_form {op : BitVec 8} (h : ¬ reservedOpcode op.toNat) : ∃ form m, CommandForm op form m := by
  have hop := opcode_mem_of_not_reserved h
  fin_cases hop
  · exact exists_form_plain .nop (fun _ => rfl) rfl rfl
  · exact exists_form_byte .rd (fun _ => rfl) (fun _ => rfl) fun _ => rfl
  · exact exists_form_bufRead
  · exact exists_form_logRead
  · exact exists_form_plain .crc16Init (fun _ => rfl) rfl rfl
  · exact exists_form_byte .crc16Update (fun _ => rfl) (fun _ => rfl) fun _ => rfl
  · exact exists_form_plain .crc16Read (fun _ => rfl) rfl rfl
  · exact exists_form_plain .crc32Init (fun _ => rfl) rfl rfl
  · exact exists_form_byte .crc32Update (fun _ => rfl) (fun _ => rfl) fun _ => rfl
  · exact exists_form_plain .crc32Read (fun _ => rfl) rfl rfl
  · exact exists_form_plain .txbufClear (fun _ => rfl) rfl rfl
  · exact exists_form_byte .txbufPush (fun _ => rfl) (fun _ => rfl) fun _ => rfl
  · exact exists_form_plain .encFrame (fun _ => rfl) rfl rfl
  · exact exists_form_plain .decStart (fun _ => rfl) rfl rfl
  · exact exists_form_plain .decReset (fun _ => rfl) rfl rfl
  · exact exists_form_plain .clOpen (fun _ => rfl) rfl rfl
  · exact exists_form_plain .clClose (fun _ => rfl) rfl rfl
  · exact exists_form_plain .clHandshake (fun _ => rfl) rfl rfl
  · exact exists_form_clPrepare
  · exact exists_form_plain .clTransfer (fun _ => rfl) rfl rfl
  · exact exists_form_plain .clVerify (fun _ => rfl) rfl rfl
  · exact exists_form_plain .clRunSession (fun _ => rfl) rfl rfl
  · exact exists_form_plain .dbufClear (fun _ => rfl) rfl rfl
  · exact exists_form_byte .dbufPush (fun _ => rfl) (fun _ => rfl) fun _ => rfl

/-- A reserved opcode is rejected by name, whatever the operand field (R106). -/
theorem decodeOp_of_reserved {op : BitVec 8} (h : reservedOpcode op.toNat) (arg : Word) :
    decodeOp op arg = .error (.reservedOpcode op) := by
  unfold reservedOpcode at h
  unfold decodeOp
  split
  case h_25 => rfl
  all_goals omega

theorem not_reserved_of_decodeCmd {w : CmdWord} {i : Instr} (h : decodeCmd w = .ok i) :
    ¬ reservedOpcode (opField w).toNat := fun hres => by
  rw [decodeCmd, decodeOp_of_reserved hres] at h
  cases h

/-- The opcode and the bits `m` of the operand field. -/
theorem and_cmdWord (w : CmdWord) (m : Word) : w &&& cmdWord 0xFF m = cmdWord (opField w) (argField w &&& m) :=
  calc w &&& cmdWord 0xFF m
      = cmdWord (opField w) (argField w) &&& cmdWord 0xFF m := by rw [cmdWord_fields]
    _ = cmdWord (opField w &&& 0xFF) (argField w &&& m) := BitVec.and_append
    _ = cmdWord (opField w) (argField w &&& m) := congrArg (cmdWord · _) BitVec.and_allOnes

/-- A word that is read as an operation is of the form of its opcode. -/
theorem exists_form_of_decodeCmd {w : CmdWord} {i : Instr} (h : decodeCmd w = .ok i) :
    ∃ form m, CommandForm (opField w) form m ∧ i = form (argField w) := by
  obtain ⟨form, m, hform⟩ := exists_form (not_reserved_of_decodeCmd h)
  exact ⟨form, m, hform, Except.ok.inj (h.symm.trans (hform.decodes _))⟩

theorem encode_of_decodeCmd {w : CmdWord} {i : Instr} (h : decodeCmd w = .ok i) :
    encode i = .cmd (w &&& usedBits i) := by
  obtain ⟨form, m, hform, rfl⟩ := exists_form_of_decodeCmd h
  rw [hform.encodes, hform.used, and_cmdWord]

/-- Words that agree in the bits the operation uses have the same opcode, and their operations the same encoding. -/
theorem decodeCmd_of_usedBits_eq {w w' : CmdWord} {i : Instr} (h : decodeCmd w = .ok i)
    (hw : w' &&& usedBits i = w &&& usedBits i) : decodeCmd w' = .ok i := by
  obtain ⟨form, m, hform, rfl⟩ := exists_form_of_decodeCmd h
  rw [hform.used, and_cmdWord, and_cmdWord] at hw
  obtain ⟨hop, harg⟩ := cmdWord_injective hw
  have hsame : form (argField w') = form (argField w) :=
    encode_injective (by rw [hform.encodes, hform.encodes, harg])
  rw [decodeCmd, hop, hform.decodes, hsame]

/-- Settles O2: both clauses by the form of the word's opcode. -/
theorem commandWordBitsUsed : Obligations.CommandWordBitsUsed :=
  ⟨fun _ _ h => encode_of_decodeCmd h, fun _ _ _ h hw => decodeCmd_of_usedBits_eq h hw⟩

/-! ## Reserved opcodes -/

theorem reservedOpcode_iff (w : CmdWord) : reservedOpcode (opField w).toNat ↔ ∀ i, decodeCmd w ≠ .ok i := by
  refine ⟨fun hres i h => not_reserved_of_decodeCmd h hres, fun hno => by_contra fun hres => ?_⟩
  obtain ⟨form, m, hform⟩ := exists_form hres
  exact hno _ (hform.decodes (argField w))

theorem nextCommand_of_reserved {s : State} {w : CmdWord} {rest : List CmdWord} (hcmd : s.port.cmd = w :: rest)
    (hres : reservedOpcode (opField w).toNat) :
    nextCommand s = .reserved { s with port := { s.port with cmd := rest } } := by
  simp only [nextCommand, hcmd, decodeCmd, decodeOp_of_reserved hres]

/-- Refusing a command in a free block changes `LAST_ERR` alone (R318). -/
theorem refuse_of_idle {s : State} (hp : s.progress = .idle) :
    refuse s = { s with
      lastErr := .cmdRefused
      port := { s.port with resp := s.port.resp ++ [responseWord .cmdRefused 0] } } := by
  unfold refuse respond
  rw [← hp]
  rfl

theorem step_refuses_reserved {s : State} {w : CmdWord} {rest : List CmdWord} (hp : s.progress = .idle)
    (hr : s.dec.state.reading = false) (hw : (s.port.wires.headD 0).getLsbD 0 = false)
    (hcmd : s.port.cmd = w :: rest) (hres : reservedOpcode (opField w).toNat) :
    step s = .next (refuse { s with port := { s.port with cmd := rest, wires := s.port.wires.tail } }) := by
  have hno : decodeWires (wireSample s) ≠ .ok .sigReset := fun h =>
    Bool.false_ne_true (hw.symm.trans ((decodeWires_eq_sigReset_iff _).1 h))
  have hin : nextInput s = nextCommand (takeWires s) := nextInput_of_idle hno hr ((busy_eq_false_iff s).2 hp)
  exact step_of_reserved (hin.trans (nextCommand_of_reserved (s := takeWires s) hcmd hres))

/-- Settles O3: an opcode has a form exactly where R106 does not reserve it. -/
theorem reservedOpcodesRefused : Obligations.ReservedOpcodesRefused :=
  ⟨reservedOpcode_iff, fun _ _ _ hp hr hw hcmd hres => by
    rw [step_refuses_reserved hp hr hw hcmd hres]
    exact congrArg _ (refuse_of_idle hp)⟩

/-- Settles O4: each word by evaluation of the decoder. -/
theorem sampleWordsDecode : Obligations.SampleWordsDecode := by
  refine ⟨?_, ?_, ?_, ?_, ?_, ?_, ?_, ?_, ?_, ?_, ?_, ?_, ?_, ?_, ?_⟩ <;> rfl

end Sys2Proof.Machine
end

section
/-! SUPPORT. The escape transform and the wire frame (R90 to R97): the two shapes of an escaped byte, one equation of
`unescape` for each way to begin, and from them the statements on the escape and the layout of a frame. -/

namespace Sys2Proof.Machine

/-! ## One byte -/

theorem needsEscape_iff (b : Byte) : needsEscape b = true ↔ b = 0x7E ∨ b = 0x7F ∨ b = 0x7D := by
  simp [needsEscape, sofByte, eofByte, escByte, or_assoc]

theorem needsEscape_eq_false_iff (b : Byte) : needsEscape b = false ↔ b ≠ 0x7E ∧ b ≠ 0x7F ∧ b ≠ 0x7D := by
  simp [needsEscape, sofByte, eofByte, escByte, and_assoc]

theorem escapePartner_iff (b : Byte) : escapePartner b = true ↔ b = 0x5E ∨ b = 0x5F ∨ b = 0x5D := by
  simp [escapePartner, or_assoc]

theorem escapePartner_eq_false_iff (b : Byte) : escapePartner b = false ↔ b ≠ 0x5E ∧ b ≠ 0x5F ∧ b ≠ 0x5D := by
  simp [escapePartner, and_assoc]

/-- The two shapes of a payload byte on the wire (R94): itself, or the escape byte and a partner that stands for it. -/
theorem escapeOne_cases (b : Byte) :
    (needsEscape b = false ∧ escapeOne b = [b]) ∨
    (needsEscape b = true ∧ ∃ c, escapePartner c = true ∧ c ^^^ escXor = b ∧ escapeOne b = [escByte, c]) := by
  cases h : needsEscape b
  · exact .inl ⟨rfl, by simp [escapeOne, h]⟩
  · refine .inr ⟨rfl, b ^^^ escXor, ?_, ?_, by simp [escapeOne, h]⟩
    · obtain rfl | rfl | rfl := (needsEscape_iff b).1 h <;> rfl
    · rw [BitVec.xor_assoc, BitVec.xor_self, BitVec.xor_zero]

/-- The table of R94. -/
theorem escapeOne_eq (b : Byte) : escapeOne b =
    if b = 0x7E then [0x7D, 0x5E] else if b = 0x7F then [0x7D, 0x5F] else if b = 0x7D then [0x7D, 0x5D] else [b] := by
  obtain ⟨hplain, heq⟩ | ⟨hmark, -⟩ := escapeOne_cases b
  · obtain ⟨hsof, heof, hesc⟩ := (needsEscape_eq_false_iff b).1 hplain
    rw [heq, if_neg hsof, if_neg heof, if_neg hesc]
  · obtain rfl | rfl | rfl := (needsEscape_iff b).1 hmark <;> rfl

theorem length_escapeOne (b : Byte) : (escapeOne b).length = 1 + if needsEscape b then 1 else 0 := by
  cases h : needsEscape b <;> simp [escapeOne, h]

/-- A marker byte is not in the wire bytes of any payload byte. -/
theorem not_mem_escapeOne {m : Byte} (hm : needsEscape m = true) (hne : m ≠ escByte) (b : Byte) : m ∉ escapeOne b := by
  obtain ⟨hplain, heq⟩ | ⟨-, c, hc, -, heq⟩ := escapeOne_cases b
  · rw [heq, List.mem_singleton]
    rintro rfl
    simp [hm] at hplain
  · rw [heq]
    rintro hmem
    obtain rfl | rfl : m = escByte ∨ m = c := by simpa using hmem
    · exact hne rfl
    · obtain rfl | rfl | rfl := (escapePartner_iff m).1 hc <;> cases hm

/-! ## `escape` -/

@[simp] theorem escape_nil : escape [] = [] := rfl

theorem escape_cons (b : Byte) (p : List Byte) : escape (b :: p) = escapeOne b ++ escape p := rfl

theorem escape_append (p q : List Byte) : escape (p ++ q) = escape p ++ escape q := List.flatMap_append

theorem length_escape (p : List Byte) : (escape p).length = p.length + p.countP needsEscape := by
  induction p with
  | nil => rfl
  | cons b p ih =>
    rw [escape_cons, List.length_append, length_escapeOne, ih, List.length_cons, List.countP_cons]
    omega

/-- Between two frame marks an escaped payload shows neither (R161). -/
theorem not_mem_escape {m : Byte} (hm : needsEscape m = true) (hne : m ≠ escByte) (p : List Byte) : m ∉ escape p := by
  rw [escape, List.mem_flatMap]
  rintro ⟨b, -, hmem⟩
  exact not_mem_escapeOne hm hne b hmem

/-- An escape byte on the wire is followed by one of its partners (R161): it begins the wire bytes of a payload byte. -/
theorem escape_partner_follows {p : List Byte} {i : Nat} (h : (escape p)[i]? = some escByte) :
    ∃ c, escapePartner c = true ∧ (escape p)[i + 1]? = some c := by
  induction p generalizing i with
  | nil => simp at h
  | cons b p ih =>
    rw [escape_cons] at h ⊢
    obtain ⟨hplain, heq⟩ | ⟨-, c, hc, -, heq⟩ := escapeOne_cases b
    · rw [heq] at h ⊢
      match i with
      | 0 =>
        obtain rfl : b = escByte := by simpa using h
        cases hplain
      | i + 1 => exact ih (by simpa using h)
    · rw [heq] at h ⊢
      match i with
      | 0 => exact ⟨c, hc, rfl⟩
      | 1 =>
        obtain rfl : c = escByte := by simpa using h
        cases hc
      | i + 2 => exact ih (by simpa using h)

/-! ## `unescape` -/

@[simp] theorem unescape_nil : unescape [] = some [] := by simp only [unescape]

theorem unescape_plain {b : Byte} (hb : needsEscape b = false) (w : List Byte) :
    unescape (b :: w) = (unescape w).map (b :: ·) := by
  have hne : b ≠ escByte := by
    rintro rfl
    cases hb
  rw [unescape.eq_def]
  simp only [hne, hb, if_false, Bool.false_eq_true]

theorem unescape_pair {c : Byte} (hc : escapePartner c = true) (w : List Byte) :
    unescape (escByte :: c :: w) = (unescape w).map ((c ^^^ escXor) :: ·) := by
  rw [unescape, if_pos rfl]
  exact if_pos hc

theorem unescape_no_partner {c : Byte} (hc : escapePartner c = false) (w : List Byte) :
    unescape (escByte :: c :: w) = none := by
  rw [unescape, if_pos rfl]
  exact if_neg (by simp [hc])

theorem unescape_dangling : unescape [escByte] = none := by simp only [unescape, if_pos]

theorem unescape_marker {b : Byte} (hb : needsEscape b = true) (hne : b ≠ escByte) (w : List Byte) :
    unescape (b :: w) = none := by
  rw [unescape.eq_def]
  simp only [hne, hb, if_false, if_true]

/-- Reading back one payload byte. -/
theorem unescape_escapeOne_append (b : Byte) (w : List Byte) :
    unescape (escapeOne b ++ w) = (unescape w).map (b :: ·) := by
  obtain ⟨hplain, heq⟩ | ⟨-, c, hc, rfl, heq⟩ := escapeOne_cases b
  · rw [heq]; exact unescape_plain hplain w
  · rw [heq]; exact unescape_pair hc w

theorem unescape_escape (p : List Byte) : unescape (escape p) = some p := by
  induction p with
  | nil => exact unescape_nil
  | cons b p ih => rw [escape_cons, unescape_escapeOne_append, ih, Option.map_some]

theorem escape_injective : Function.Injective escape := fun p q h =>
  Option.some.inj ((unescape_escape p).symm.trans ((congrArg unescape h).trans (unescape_escape q)))

theorem escapeOne_of_plain {b : Byte} (hb : needsEscape b = false) : escapeOne b = [b] := by
  simp [escapeOne, hb]

/-- A partner stands for the byte that the table of R94 gives it. -/
theorem escapeOne_of_partner {c : Byte} (hc : escapePartner c = true) : escapeOne (c ^^^ escXor) = [escByte, c] := by
  obtain rfl | rfl | rfl := (escapePartner_iff c).1 hc <;> rfl

/-- What `unescape` accepts is an escaped payload: by the ways in which a list of wire bytes can begin. -/
theorem escape_of_unescape {w p : List Byte} (h : unescape w = some p) : escape p = w := by
  induction w using unescape.induct generalizing p with
  | case1 =>
    obtain rfl : [] = p := by simpa using h
    rfl
  | case2 =>
    rw [unescape_dangling] at h
    cases h
  | case3 c w hc ih =>
    rw [unescape_pair hc, Option.map_eq_some_iff] at h
    obtain ⟨q, hq, rfl⟩ := h
    rw [escape_cons, escapeOne_of_partner hc, ih hq]
    rfl
  | case4 c w hc =>
    rw [unescape_no_partner (by simpa using hc)] at h
    cases h
  | case5 b w hne hb =>
    rw [unescape_marker hb hne] at h
    cases h
  | case6 b w hne hb ih =>
    rw [unescape_plain (by simpa using hb), Option.map_eq_some_iff] at h
    obtain ⟨q, hq, rfl⟩ := h
    rw [escape_cons, escapeOne_of_plain (by simpa using hb), ih hq]
    rfl

theorem unescape_eq_some_iff (w p : List Byte) : unescape w = some p ↔ escape p = w :=
  ⟨escape_of_unescape, fun h => h ▸ unescape_escape p⟩

/-! ## The statements on the escape -/

/-- Settles O21: the table byte by byte, the rest along the payload. -/
theorem escapeProperties : Obligations.EscapeProperties := by
  refine ⟨fun b p => ?_, length_escape, fun p => ?_, fun p i h => ?_, escape_injective, unescape_escape, escape_append⟩
  · rw [escape_cons, escapeOne_eq]
  · exact ⟨not_mem_escape (m := 0x7E) rfl (by decide) p, not_mem_escape (m := 0x7F) rfl (by decide) p⟩
  · obtain ⟨c, hc, hi⟩ := escape_partner_follows h
    rw [hi]
    exact ((escapePartner_iff c).1 hc).imp (congrArg some) (Or.imp (congrArg some) (congrArg some))

/-- Settles O22: one equation of `unescape` for each way to begin. -/
theorem unescapeIsStrictInverse : Obligations.UnescapeIsStrictInverse := by
  refine ⟨unescape_eq_some_iff, fun b w hesc hsof heof => ?_, fun w => ?_, fun w => ?_, fun b w h5E h5F h5D => ?_⟩
  · exact unescape_plain ((needsEscape_eq_false_iff b).2 ⟨hsof, heof, hesc⟩) w
  · exact ⟨unescape_pair (c := 0x5E) rfl w, unescape_pair (c := 0x5F) rfl w, unescape_pair (c := 0x5D) rfl w⟩
  · exact ⟨unescape_marker rfl (by decide) w, unescape_marker rfl (by decide) w⟩
  · exact unescape_no_partner ((escapePartner_eq_false_iff b).2 ⟨h5E, h5F, h5D⟩) w

/-! ## The layout of a frame -/

theorem frameEncode_of_too_long {p : List Byte} (h : 1024 < p.length) : frameEncode p = none := if_pos h

theorem frameEncode_of_le {p : List Byte} (h : p.length ≤ 1024) : frameEncode p = some (frameBytes p) :=
  if_neg (Nat.not_lt.2 h)

/-- The two bytes of a 16-bit number, the more significant one first (R62). -/
theorem be16_ofNat (n : Nat) (hn : n < 2 ^ 16) :
    be16 (BitVec.ofNat 16 n) = [BitVec.ofNat 8 (n / 256), BitVec.ofNat 8 (n % 256)] := by
  have hhigh : (BitVec.ofNat 16 n).extractLsb' 8 8 = BitVec.ofNat 8 (n / 256) := by
    apply BitVec.eq_of_toNat_eq
    simp only [BitVec.extractLsb'_toNat, BitVec.toNat_ofNat, Nat.shiftRight_eq_div_pow]
    omega
  have hlow : (BitVec.ofNat 16 n).extractLsb' 0 8 = BitVec.ofNat 8 (n % 256) := by
    apply BitVec.eq_of_toNat_eq
    simp only [BitVec.extractLsb'_toNat, BitVec.toNat_ofNat, Nat.shiftRight_zero]
    omega
  rw [be16, hhigh, hlow]

/-- The bytes of a frame: three before the escaped payload, three after it (R92). -/
theorem frameBytes_eq (p : List Byte) (hp : p.length ≤ 1024) :
    frameBytes p = [0x7E, BitVec.ofNat 8 (p.length / 256), BitVec.ofNat 8 (p.length % 256)] ++
      (escape p ++ (be16 (crc16Ccitt (crcInput p)) ++ [0x7F])) := by
  rw [frameBytes, be16_ofNat p.length (by omega)]
  simp [sofByte, eofByte]

theorem crcInput_eq (p : List Byte) (hp : p.length ≤ 1024) :
    crcInput p = [BitVec.ofNat 8 (p.length / 256), BitVec.ofNat 8 (p.length % 256)] ++ p := by
  rw [crcInput, be16_ofNat p.length (by omega)]

/-- The length of a frame on the wire (R96). -/
theorem length_frameBytes (p : List Byte) (hp : p.length ≤ 1024) :
    (frameBytes p).length = 6 + p.length + p.countP needsEscape := by
  rw [frameBytes_eq p hp]
  simp only [List.length_append, List.length_cons, List.length_nil, be16, length_escape]
  omega

/-- The bytes after the escaped payload (R92). -/
theorem frameBytes_getElem?_after (p : List Byte) (hp : p.length ≤ 1024) (i : Nat) :
    (frameBytes p)[3 + (escape p).length + i]? = (be16 (crc16Ccitt (crcInput p)) ++ [0x7F])[i]? := by
  rw [frameBytes_eq p hp, Nat.add_assoc, List.getElem?_append_right (by simp), List.getElem?_append_right (by simp)]
  simp

/-- Settles O23: the frame is three bytes, the escaped payload and three bytes. -/
theorem frameLayout : Obligations.FrameLayout := by
  refine ⟨fun p hp => frameEncode_of_too_long hp, fun p hp => ?_⟩
  intro k h c
  have hk : k ≤ p.length := List.countP_le_length
  have hlen : (frameBytes p).length = 6 + p.length + k := length_frameBytes p hp
  have hesc : (escape p).length = p.length + k := length_escape p
  have hc : crc16Ccitt (crcInput p) = c := congrArg crc16Ccitt (crcInput_eq p hp)
  have hafter (i : Nat) : (frameBytes p)[3 + p.length + k + i]? = (be16 c ++ [0x7F])[i]? := by
    rw [← hc, ← frameBytes_getElem?_after p hp, hesc, Nat.add_assoc 3]
  refine ⟨frameBytes p, frameEncode_of_le hp, hlen, by omega, by omega, ?_, ?_, ?_, ?_, ?_, ?_, ?_⟩
  · rw [frameBytes_eq p hp]; rfl
  · rw [frameBytes_eq p hp]; rfl
  · rw [frameBytes_eq p hp]; rfl
  · rw [frameBytes_eq p hp, ← hesc]
    exact List.take_left' rfl
  · exact hafter 0
  · rw [show 4 + p.length + k = 3 + p.length + k + 1 by omega]; exact hafter 1
  · rw [show 5 + p.length + k = 3 + p.length + k + 2 by omega]; exact hafter 2

end Sys2Proof.Machine
end

section
/-! SUPPORT. What a step does at the ports (R41, R65, R102): an operation takes no receive event by itself and emits one
response word at most, and a step takes one receive event at most before it runs its operation. -/

namespace Sys2Proof.Machine

/-! ## The effect of an operation at the ports -/

/-- A response word has been emitted: `LAST_ERR` has its status and `BUSY` is 0 (R24, R41, R102). -/
def Answered (s t : State) : Prop :=
  ∃ e v, t.port.resp = s.port.resp ++ [responseWord e v] ∧ t.lastErr = e ∧ t.progress = .idle

/-- From `s` to `t` no receive event has been taken, and nothing has been emitted or one response word has. -/
structure PortEffects (s t : State) : Prop where
  rx : t.link.rx = s.link.rx
  resp : t.port.resp = s.port.resp ∨ Answered s t

@[simp] theorem pushTxbuf_link (b : Byte) (s : State) : (pushTxbuf b s).link = s.link := by
  unfold pushTxbuf; split <;> rfl

@[simp] theorem pushTxbuf_port (b : Byte) (s : State) : (pushTxbuf b s).port = s.port := by
  unfold pushTxbuf; split <;> rfl

@[simp] theorem pushDbuf_link (b : Byte) (s : State) : (pushDbuf b s).link = s.link := by
  unfold pushDbuf; split <;> rfl

@[simp] theorem pushDbuf_port (b : Byte) (s : State) : (pushDbuf b s).port = s.port := by
  unfold pushDbuf; split <;> rfl

namespace PortEffects

variable {s t u : State}

theorem silent (hrx : t.link.rx = s.link.rx) (hresp : t.port.resp = s.port.resp) : PortEffects s t := ⟨hrx, .inl hresp⟩

/-- What is silent before an operation does not show in its effect. -/
theorem after_silent (h : PortEffects u t) (hrx : u.link.rx = s.link.rx) (hresp : u.port.resp = s.port.resp) :
    PortEffects s t :=
  ⟨h.rx.trans hrx, by simpa only [Answered, hresp] using h.resp⟩

theorem respond (e : ErrKind) (v : Word) : PortEffects s (respond e v s) := ⟨rfl, .inr ⟨e, v, rfl, rfl, rfl⟩⟩

theorem refuse : PortEffects s (refuse s) := respond _ _

theorem resetBlock : PortEffects s (resetBlock s) := silent rfl rfl

theorem answer (v : Option Word) : PortEffects s (answer v s) := by
  cases v <;> exact respond _ _

theorem phaseFailed (p : Phase) (b : Bool) (e : ErrKind) : PortEffects s (phaseFailed p b e s) :=
  (respond e _).after_silent rfl rfl

/-- A command that is not accepted shows nowhere (R24). -/
theorem accept {f : State → State} (h : PortEffects s (f s)) : PortEffects s (accept s f) := by
  obtain ⟨-, heq⟩ | ⟨-, heq⟩ := accept_cases s f <;> rw [heq]
  · exact silent rfl rfl
  · exact h

theorem sendFrame (f : List Byte) : PortEffects s (sendFrame f s) := by
  obtain ⟨n, -, -, heq⟩ | ⟨n, -, -, heq⟩ | ⟨-, heq⟩ | ⟨n, -, heq⟩ := sendFrame_cases f s
  · rw [heq]; exact (respond _ _).after_silent rfl rfl
  · rw [heq]; exact (respond _ _).after_silent rfl rfl
  · rw [heq]; exact (respond _ _).after_silent rfl rfl
  · rw [heq]; exact resetBlock.after_silent rfl rfl

/-! ### An exchange -/

theorem sendRequest (p : Phase) (b : Bool) (m : List Byte) : PortEffects s (sendRequest p b m s) := by
  obtain ⟨n, -, -, heq⟩ | ⟨n, -, -, heq⟩ | ⟨-, heq⟩ | ⟨n, -, heq⟩ := sendRequest_cases p b m s
  · rw [heq]; exact silent (by simp) (by simp)
  · rw [heq]; exact (phaseFailed p b _).after_silent (by simp) (by simp)
  · rw [heq]; exact (phaseFailed p b _).after_silent (by simp) (by simp)
  · rw [heq]; exact resetBlock.after_silent rfl rfl

theorem startPhase (p : Phase) (b : Bool) (n : Word) : PortEffects s (startPhase p b n s) := by
  obtain ⟨-, heq⟩ | ⟨-, -, heq⟩ := startPhase_cases p b n s
  · rw [heq]; exact phaseFailed p b _
  · rw [heq]; exact (sendRequest p b _).after_silent rfl rfl

theorem phaseCommand (p : Phase) (n : Word) : PortEffects s (phaseCommand p n s) := by
  obtain ⟨-, heq⟩ | ⟨-, heq⟩ := phaseCommand_cases p n s
  · rw [heq]; exact startPhase p false n
  · rw [heq]; exact refuse

/-- A session goes on without a response until it ends (R267). -/
theorem continueSession (p : Phase) (b : Bool) : PortEffects s (continueSession p b s) := by
  obtain ⟨-, heq⟩ | ⟨-, -, heq⟩ | ⟨-, -, heq⟩ | ⟨-, -, heq⟩ | ⟨-, -, heq⟩ := continueSession_cases p b s
  · rw [heq]; exact respond _ _
  · rw [heq]; exact startPhase _ _ _
  · rw [heq]; exact startPhase _ _ _
  · rw [heq]; exact startPhase _ _ _
  · rw [heq]; exact (respond _ _).after_silent rfl rfl

theorem judgeResponse (p : Phase) (b : Bool) : PortEffects s (judgeResponse p b s) := by
  obtain ⟨-, heq⟩ | ⟨r, -, -, heq⟩ | ⟨r, -, -, -, heq⟩ | ⟨r, -, -, -, heq⟩ := judgeResponse_cases p b s
  · rw [heq]; exact phaseFailed p b _
  · rw [heq]; exact (phaseFailed p b _).after_silent (by simp) (by simp)
  · rw [heq]; exact (phaseFailed p b _).after_silent (by simp) (by simp)
  · rw [heq]; exact (continueSession p b).after_silent (by simp) (by simp)

theorem finishExchange (p : Phase) (b : Bool) (k : Nat) : PortEffects s (finishExchange p b k s) := by
  obtain ⟨-, heq⟩ | ⟨-, -, heq⟩ | ⟨-, -, -, heq⟩ := finishExchange_cases p b k s
  · rw [heq]; exact judgeResponse p b
  · rw [heq]; exact phaseFailed p b _
  · rw [heq]; exact silent rfl rfl

/-! ### Events -/

theorem respondDecode : PortEffects s (respondDecode s) := by
  obtain ⟨-, heq⟩ | ⟨-, -, heq⟩ | ⟨-, -, heq⟩ := respondDecode_cases s <;> rw [heq] <;> exact respond _ _

theorem afterEvent : PortEffects s (afterEvent s) := by
  obtain ⟨-, heq⟩ | ⟨-, -, heq⟩ | ⟨-, -, heq⟩ | ⟨p, b, k, -, -, heq⟩ := afterEvent_cases s
  · rw [heq]; exact silent rfl rfl
  · rw [heq]; exact silent rfl rfl
  · rw [heq]; exact respondDecode
  · rw [heq]; exact finishExchange p b k

theorem onEvent {f : State → State} (hf : DecoderOnly f) : PortEffects s (onEvent f s) := by
  obtain ⟨-, heq⟩ | ⟨-, heq⟩ := onEvent_cases f s
  · obtain ⟨d, m, k, hfs⟩ := hf s
    rw [heq, hfs]; exact afterEvent.after_silent rfl rfl
  · rw [heq]; exact silent rfl rfl

/-! ### The operations -/

theorem execEncFrame (h : execEncFrame s = .next t) : PortEffects s t := by
  cases h
  refine accept ?_
  split
  · exact respond _ _
  · exact sendFrame _

theorem execDecStart (h : execDecStart s = .next t) : PortEffects s t := by
  cases h
  refine accept ?_
  split
  · exact refuse
  · exact silent rfl rfl

theorem execClOpen (h : execClOpen s = .next t) : PortEffects s t := by
  cases h
  refine accept ?_
  split
  · exact refuse
  · split
    · exact (respond _ _).after_silent rfl rfl
    · exact (respond _ _).after_silent rfl rfl
    · exact resetBlock.after_silent rfl rfl

theorem execClClose (h : execClClose s = .next t) : PortEffects s t := by
  cases h
  refine accept ?_
  split
  · exact respond _ _
  · split
    · exact (respond _ _).after_silent rfl rfl
    · exact resetBlock.after_silent rfl rfl

theorem execClRunSession (h : execClRunSession s = .next t) : PortEffects s t := by
  cases h
  refine accept ?_
  split
  · exact refuse
  · split
    · exact phaseFailed _ _ _
    · exact startPhase _ _ _

end PortEffects

/-- Every operation takes no receive event by itself, and answers once at most. -/
theorem exec_portEffects {i : Instr} {s t : State} (h : exec i s = .next t) : PortEffects s t := by
  cases i with
  | encFrame => exact .execEncFrame h
  | decStart => exact .execDecStart h
  | clOpen => exact .execClOpen h
  | clClose => exact .execClClose h
  | clRunSession => exact .execClRunSession h
  | rd | bufRead | logRead => cases h; exact .accept (.answer _)
  | clHandshake | clPrepare | clTransfer | clVerify => cases h; exact .accept (.phaseCommand _ _)
  | nop | crc16Init | crc16Update | crc16Read | crc32Init | crc32Update | crc32Read | txbufClear | decReset
  | dbufClear =>
    cases h; exact .accept (PortEffects.after_silent (.respond _ _) rfl rfl)
  | txbufPush | dbufPush => cases h; exact .accept (PortEffects.after_silent (.respond _ _) (by simp) (by simp))
  | rxByte b => cases h; exact .onEvent (decoderOnly_receiveByte b)
  | rxTimeout => cases h; exact .onEvent decoderOnly_receiveTimeout
  | rxError | sigAbort => cases h; exact .onEvent (decoderOnly_rxFail _)
  | sigReset => cases h; exact .resetBlock

/-! ## The step -/

/-- A read of the link takes the front event, and a symbol that no link produces stops the block (R65, R104). -/
theorem nextEvent_takes_front (s : State) :
    nextEvent s = .wait s ∨
    (∃ e rest i, s.link.rx = e :: rest ∧ nextEvent s = .run i { s with link := { s.link with rx := rest } }) ∨
    nextEvent s = .badSymbol := by
  unfold nextEvent
  split
  · exact .inl rfl
  · next e rest hrx =>
    split
    · next i _ => exact .inr (.inl ⟨e, rest, i, hrx, rfl⟩)
    · exact .inr (.inr rfl)

/-- The receive stream after a step has taken its input from `s`, giving `u`: as it was, or, in a reading state, without
its front event. -/
def TakenFront (s u : State) : Prop :=
  u.link.rx = s.link.rx ∨ (s.dec.state.reading = true ∧ ∃ e, s.link.rx = e :: u.link.rx)

/-- A step takes its input from the ports, one receive event at most, and does in the state that is left what an
operation, a refusal or a wait does. -/
theorem step_takes_then_acts {s t : State} (h : step s = .next t) :
    ∃ u, u.port.resp = s.port.resp ∧ TakenFront s u ∧ PortEffects u t := by
  obtain ⟨-, hin⟩ | ⟨-, -, hin⟩ | ⟨-, hr, hin⟩ | ⟨-, -, -, hin⟩ | ⟨-, -, -, hin⟩ := nextInput_cases s
  · exact ⟨takeWires s, rfl, .inl rfl, exec_portEffects (step_of_run hin ▸ h)⟩
  · exact ⟨takeWires s, rfl, .inl rfl, exec_portEffects (step_of_run hin ▸ h)⟩
  · obtain hev | ⟨e, rest, i, hrx, hev⟩ | hev := nextEvent_takes_front (takeWires s)
    · rw [step_of_wait (hin.trans hev)] at h
      cases h; exact ⟨takeWires s, rfl, .inl rfl, .silent rfl rfl⟩
    · exact ⟨{ takeWires s with link := { s.link with rx := rest } }, rfl, .inr ⟨hr, e, hrx⟩,
        exec_portEffects (step_of_run (hin.trans hev) ▸ h)⟩
    · simp [step, hin, hev] at h
  · rw [step_of_wait hin] at h
    cases h; exact ⟨takeWires s, rfl, .inl rfl, .silent rfl rfl⟩
  · obtain ⟨-, hcmd⟩ | ⟨i, rest, hcmd⟩ | ⟨rest, hcmd⟩ := nextCommand_cases (takeWires s)
    · rw [step_of_wait (hin.trans hcmd)] at h
      cases h; exact ⟨takeWires s, rfl, .inl rfl, .silent rfl rfl⟩
    · exact ⟨{ takeWires s with port := { (takeWires s).port with cmd := rest } }, rfl, .inl rfl,
        exec_portEffects (step_of_run (hin.trans hcmd) ▸ h)⟩
    · rw [step_of_reserved (hin.trans hcmd)] at h
      cases h
      exact ⟨{ takeWires s with port := { (takeWires s).port with cmd := rest } }, rfl, .inl rfl, .refuse⟩

/-! ## The statements -/

/-- Settles O5: the symbols by `decodeRx`, the stream by what a step takes before it acts. -/
theorem receiveEventsTakenOneByOne : Obligations.ReceiveEventsTakenOneByOne := by
  refine ⟨fun e he => decodeRx_of_bit8 he, rfl, rfl, fun e he => decodeRx_of_reserved he, fun s t hstep => ?_⟩
  obtain ⟨u, -, htaken, heffects⟩ := step_takes_then_acts hstep
  rw [heffects.rx]
  exact htaken

/-- Settles O10: taking an input emits nothing, and what follows answers once at most. -/
theorem atMostOneResponse : Obligations.AtMostOneResponse := by
  intro s t hstep
  obtain ⟨u, hresp, -, heffects⟩ := step_takes_then_acts hstep
  rw [← hresp]
  exact heffects.resp

end Sys2Proof.Machine
end

section
/-! SUPPORT. The Checksum Engine (spec/40_crc.md R130 to R139): the laws of one iteration of the CRC-16, from them the
fixed points of a zero byte and the residue of a CRC folded in after its bytes, and the statements on the engine. -/

namespace Sys2Proof.Machine

/-! ## One iteration of the CRC-16 as a linear map -/

theorem crc16Shift_of_msb_clear {c : BitVec 16} (h : c.getLsbD 15 = false) : crc16Shift c = c <<< 1 :=
  if_neg (ne_true_of_eq_false h)

theorem crc16Shift_of_msb_set {c : BitVec 16} (h : c.getLsbD 15 = true) : crc16Shift c = (c <<< 1) ^^^ crc16Poly :=
  if_pos h

theorem crc16Shift_xor (c d : BitVec 16) : crc16Shift (c ^^^ d) = crc16Shift c ^^^ crc16Shift d := by
  unfold crc16Shift
  rw [BitVec.getLsbD_xor, BitVec.shiftLeft_xor_distrib]
  cases c.getLsbD 15 <;> cases d.getLsbD 15
  · rfl
  · exact BitVec.xor_assoc _ _ _
  · change _ = c <<< 1 ^^^ crc16Poly ^^^ d <<< 1
    ac_rfl
  · calc c <<< 1 ^^^ d <<< 1
        _ = c <<< 1 ^^^ d <<< 1 ^^^ (crc16Poly ^^^ crc16Poly) := by simp
        _ = c <<< 1 ^^^ crc16Poly ^^^ (d <<< 1 ^^^ crc16Poly) := by ac_rfl

theorem crc16Shift_iterate_xor (n : Nat) (c d : BitVec 16) :
    crc16Shift^[n] (c ^^^ d) = crc16Shift^[n] c ^^^ crc16Shift^[n] d := by
  induction n generalizing c d with
  | zero => rfl
  | succ n ih => simp only [Function.iterate_succ_apply, crc16Shift_xor, ih]

/-- While the bits shifted out are 0, the polynomial is never added: the bits of a byte reach the upper half unchanged. -/
theorem crc16Shift_iterate_byte (b : Byte) {n : Nat} (hn : n ≤ 8) :
    crc16Shift^[n] (b.setWidth 16) = b.setWidth 16 <<< n := by
  induction n with
  | zero => simp
  | succ n ih =>
    have hmsb : (b.setWidth 16 <<< n).getLsbD 15 = false := by
      have hge : 8 ≤ 15 - n := by omega
      simp [BitVec.getLsbD_of_ge b _ hge]
    rw [Function.iterate_succ_apply', ih (by omega), crc16Shift_of_msb_clear hmsb, BitVec.shiftLeft_add]

/-! ## The parity of a register value

The factor `x + 1` of the generator polynomial in the form the proof needs: an iteration keeps the parity of the bits set. -/

/-- Whether an odd number of bits is set. -/
def crc16Parity (c : BitVec 16) : Bool := (List.range 16).foldr (fun i p => c.getLsbD i ^^ p) false

theorem crc16Parity_xor (c d : BitVec 16) : crc16Parity (c ^^^ d) = (crc16Parity c ^^ crc16Parity d) := by
  unfold crc16Parity
  induction List.range 16 with
  | nil => rfl
  | cons i is ih =>
    rw [List.foldr_cons, ih, BitVec.getLsbD_xor, List.foldr_cons, List.foldr_cons]
    simp only [Bool.xor_assoc, Bool.xor_left_comm]

theorem crc16Parity_shiftLeft_one (c : BitVec 16) : crc16Parity (c <<< 1) = (crc16Parity c ^^ c.getLsbD 15) := by
  simp [crc16Parity, List.range_succ]

theorem crc16Parity_crc16Shift (c : BitVec 16) : crc16Parity (crc16Shift c) = crc16Parity c := by
  have hpoly : crc16Parity crc16Poly = true := by decide
  cases h : c.getLsbD 15 with
  | false => rw [crc16Shift_of_msb_clear h, crc16Parity_shiftLeft_one, h, Bool.xor_false]
  | true =>
    rw [crc16Shift_of_msb_set h, crc16Parity_xor, crc16Parity_shiftLeft_one, h, hpoly, Bool.xor_assoc, Bool.xor_self,
      Bool.xor_false]

theorem crc16Parity_iterate (n : Nat) (c : BitVec 16) : crc16Parity (crc16Shift^[n] c) = crc16Parity c := by
  induction n generalizing c with
  | zero => rfl
  | succ n ih => rw [Function.iterate_succ_apply, ih, crc16Parity_crc16Shift]

/-! ## The fixed points of an iteration and of a zero byte -/

theorem eq_zero_of_shiftLeft_one_eq {c : BitVec 16} (h : c <<< 1 = c) : c = 0 := by
  bv_omega

theorem crc16Shift_fixed_iff (c : BitVec 16) : crc16Shift c = c ↔ c = 0 ∨ c = 0xF01F := by
  have hfix : crc16Shift 0xF01F = 0xF01F := by decide
  constructor
  · intro h
    cases hmsb : c.getLsbD 15 with
    | false => exact .inl (eq_zero_of_shiftLeft_one_eq (crc16Shift_of_msb_clear hmsb ▸ h))
    | true =>
      have hclear : (c ^^^ 0xF01F).getLsbD 15 = false := by simp [hmsb]
      have hdiff : crc16Shift (c ^^^ 0xF01F) = c ^^^ 0xF01F := by rw [crc16Shift_xor, h, hfix]
      rw [crc16Shift_of_msb_clear hclear] at hdiff
      exact .inr (BitVec.xor_eq_zero_iff.1 (eq_zero_of_shiftLeft_one_eq hdiff))
  · rintro (rfl | rfl)
    · rfl
    · exact hfix

/-- Doubling the number of iterations adds no fixed point: the sum of `c` and its image is a fixed point of even parity,
and of the two fixed points only 0 has it. -/
theorem crc16Shift_fixed_of_double {n : Nat}
    (hn : ∀ c, crc16Shift^[n] c = c → c = 0 ∨ c = 0xF01F) {c : BitVec 16} (h : crc16Shift^[n + n] c = c) :
    crc16Shift^[n] c = c := by
  rw [Function.iterate_add_apply] at h
  have hsum : crc16Shift^[n] (crc16Shift^[n] c ^^^ c) = crc16Shift^[n] c ^^^ c := by
    rw [crc16Shift_iterate_xor, h, BitVec.xor_comm]
  have heven : crc16Parity (crc16Shift^[n] c ^^^ c) = false := by
    rw [crc16Parity_xor, crc16Parity_iterate, Bool.xor_self]
  obtain hzero | hodd := hn _ hsum
  · exact BitVec.xor_eq_zero_iff.1 hzero
  · rw [hodd] at heven
    exact absurd heven (by decide)

theorem crc16Shift_iterate_two_pow_fixed (k : Nat) {c : BitVec 16} (h : crc16Shift^[2 ^ k] c = c) :
    c = 0 ∨ c = 0xF01F := by
  induction k generalizing c with
  | zero => exact (crc16Shift_fixed_iff c).1 h
  | succ k ih =>
    rw [Nat.pow_succ, Nat.mul_two] at h
    exact ih (crc16Shift_fixed_of_double (fun _ => ih) h)

theorem crc16Step_zero_fixed_iff (c : BitVec 16) : crc16Step c 0 = c ↔ c = 0 ∨ c = 0xF01F := by
  have hstep : crc16Step c 0 = crc16Shift^[2 ^ 3] c := by simp [crc16Step]
  rw [hstep]
  exact ⟨crc16Shift_iterate_two_pow_fixed 3,
    fun h => Function.iterate_fixed ((crc16Shift_fixed_iff c).2 h) _⟩

/-! ## The residue -/

theorem crc16Step_upperByte (c : BitVec 16) : crc16Step c (c.extractLsb' 8 8) = (c.extractLsb' 0 8).setWidth 16 <<< 8 := by
  have hlower : c ^^^ ((c.extractLsb' 8 8).setWidth 16 <<< 8) = (c.extractLsb' 0 8).setWidth 16 := by
    ext i hi
    obtain hlow | hhigh := Nat.lt_or_ge i 8
    · simp [hlow, BitVec.getLsbD_eq_getElem hi]
    · have hin : i - 8 < 8 := by omega
      have hbit : 8 + (i - 8) = i := by omega
      simp [Nat.not_lt.2 hhigh, hin, hbit, BitVec.getLsbD_eq_getElem hi]
  rw [crc16Step, hlower, crc16Shift_iterate_byte _ (Nat.le_refl 8)]

theorem crc16Step_lowerByte (b : Byte) : crc16Step (b.setWidth 16 <<< 8) b = 0 := by
  rw [crc16Step, BitVec.xor_self]
  exact Function.iterate_fixed ((crc16Shift_fixed_iff 0).2 (.inl rfl)) 8

/-- Settles O19: the upper byte leaves the lower one in the upper half of the register, and the lower byte clears it. -/
theorem crc16Residue : Obligations.Crc16Residue := by
  intro a
  have hfold : crc16Ccitt (a ++ be16 (crc16Ccitt a)) =
      crc16Step (crc16Step (crc16Ccitt a) ((crc16Ccitt a).extractLsb' 8 8)) ((crc16Ccitt a).extractLsb' 0 8) :=
    List.foldl_append
  rw [hfold, crc16Step_upperByte, crc16Step_lowerByte]

/-! ## The statements -/

/-- A free block runs the operation behind `accept` (R24). -/
theorem next_accept_of_idle {s : State} (h : s.progress = .idle) (f : State → State) :
    (.next (accept s f) : Host.Outcome State Fault Refusal) = .next (f s) :=
  congrArg _ (accept_of_idle ((busy_eq_false_iff s).2 h) f)

/-- Settles O17: R132's iteration is `crc16Shift`, whose powers have the two fixed points of `crc16Shift` itself. -/
theorem crc16Update : Obligations.Crc16Update :=
  ⟨fun _ => decodeCmd_cmdWord _ _, fun _ _ h => next_accept_of_idle h _, crc16Step_zero_fixed_iff, by decide⟩

/-- Settles O16: the opcodes by the decoder, the constants and the two examples by evaluation. -/
theorem crcInitAndRead : Obligations.CrcInitAndRead :=
  ⟨fun _ => ⟨decodeCmd_cmdWord _ _, decodeCmd_cmdWord _ _, decodeCmd_cmdWord _ _, decodeCmd_cmdWord _ _⟩,
    rfl, rfl, rfl, rfl, rfl, by decide +kernel, rfl, by decide +kernel,
    fun _ h => ⟨next_accept_of_idle h _, next_accept_of_idle h _, next_accept_of_idle h _, next_accept_of_idle h _⟩⟩

/-- Settles O18: R137's iteration is `crc32Shift`, and the two examples by evaluation. -/
theorem crc32Update : Obligations.Crc32Update :=
  ⟨fun _ => decodeCmd_cmdWord _ _, fun _ _ h => next_accept_of_idle h _, by decide, by decide⟩

end Sys2Proof.Machine
end

section
/-! SUPPORT. The frame encoder's operations (spec/41_frame_encoder.md R164 to R167): what a push stores, what one
`TxWrite` does to the link for each answer (R64), and how `ENC.FRAME` ends for each (R166). -/

namespace Sys2Proof.Machine

/-! ## TXBUF -/

theorem writeBuffer_single_mem (sp : Space) (i : Nat) (b : Byte) (s : State) :
    (writeBuffer sp i [b] s).mem = s.mem.writeAt (Memory.addr sp i) b := rfl

/-- A byte written at one index of a buffer is read back there, and every other byte of any buffer is as before. -/
theorem readAt_writeBuffer_single (sp : Space) (i : Nat) (b : Byte) (s : State) :
    (writeBuffer sp i [b] s).mem.readAt (Memory.addr sp i) = some b ∧
      ∀ a, a ≠ Memory.addr sp i → (writeBuffer sp i [b] s).mem.readAt a = s.mem.readAt a := by
  rw [writeBuffer_single_mem]
  exact ⟨by rw [Memory.readAt_writeAt, if_pos rfl], fun a ha => by rw [Memory.readAt_writeAt, if_neg ha]⟩

theorem pushTxbuf_of_lt {s : State} (h : s.txLen.toNat < 1024) (b : Byte) :
    pushTxbuf b s = { writeBuffer .txbuf s.txLen.toNat [b] s with txLen := s.txLen + 1 } := if_pos h

theorem pushTxbuf_of_ge {s : State} (h : 1024 ≤ s.txLen.toNat) (b : Byte) :
    pushTxbuf b s = { s with txLen := 1025 } := if_neg (Nat.not_lt.2 h)

theorem exec_txbufPush_of_idle {s : State} (h : s.progress = .idle) (b : Byte) :
    exec (.txbufPush b) s = .next (respond .none ((pushTxbuf b s).txLen.setWidth 32) (pushTxbuf b s)) :=
  next_accept_of_idle h _

/-- Settles O24: a push is one of `pushTxbuf`'s two cases, and below the boundary it is a write of one byte. -/
theorem txbufCommands : Obligations.TxbufCommands := by
  refine ⟨fun arg => ⟨decodeCmd_cmdWord _ _, decodeCmd_cmdWord _ _⟩, fun s hidle => next_accept_of_idle hidle _,
    fun s b hidle hlt => ?_, fun s b hidle hge => ?_, fun s => ⟨rfl, rfl⟩⟩
  · refine ⟨(writeBuffer .txbuf s.txLen.toNat [b] s).mem, ?_, readAt_writeBuffer_single .txbuf _ b s⟩
    rw [exec_txbufPush_of_idle hidle, pushTxbuf_of_lt hlt]
    rfl
  · rw [exec_txbufPush_of_idle hidle, pushTxbuf_of_ge hge]
    rfl

/-! ## The write of a frame -/

section
variable {s : State} {f : List Byte} {n : Nat}

/-- A failed write puts no byte on the wire (log entry 5). -/
theorem txWrite_of_transportError (h : nextWriteAnswer s.link = .transportError) :
    txWrite f s = { s with link := { s.link with
      calls := s.link.calls ++ [.txWrite f], writeAnswers := s.link.writeAnswers.tail } } := by
  simp [txWrite, h, acceptedCount]

/-- The link takes the first `n` bytes, or the whole list where it is shorter (R64). -/
theorem txWrite_of_accepted (h : nextWriteAnswer s.link = .accepted n) :
    txWrite f s = { s with link := { s.link with
      tx := s.link.tx ++ f.take n
      calls := s.link.calls ++ [.txWrite f], writeAnswers := s.link.writeAnswers.tail } } := by
  simp only [txWrite, h, acceptedCount, ← List.take_eq_take_min]

/-- The write and the one flush after it (R69). -/
theorem txFlush_txWrite_of_accepted (h : nextWriteAnswer s.link = .accepted n) :
    txFlush (txWrite f s) = { s with link := { s.link with
      tx := s.link.tx ++ f.take n
      calls := s.link.calls ++ [.txWrite f, .txFlush], writeAnswers := s.link.writeAnswers.tail } } := by
  rw [txWrite_of_accepted h]
  simp [txFlush]

theorem sendFrame_of_transportError (h : nextWriteAnswer s.link = .transportError) :
    sendFrame f s = respond .transportError 0 (txWrite f s) := by
  simp only [sendFrame, h]

theorem sendFrame_of_short (h : nextWriteAnswer s.link = .accepted n) (hn : n < f.length) :
    sendFrame f s = respond .transportError (BitVec.ofNat 32 n) (txFlush (txWrite f s)) := by
  simp only [sendFrame, h, if_pos hn]

theorem sendFrame_of_whole (h : nextWriteAnswer s.link = .accepted n) (hn : f.length ≤ n) :
    sendFrame f s = respond .none (BitVec.ofNat 32 f.length) (txFlush (txWrite f s)) := by
  simp only [sendFrame, h, if_neg (Nat.not_lt.2 hn)]

/-! ## `ENC.FRAME` -/

theorem exec_encFrame_of_too_long (hidle : s.progress = .idle) (hlen : 1024 < s.txLen.toNat) :
    exec .encFrame s = .next (respond .framePayloadTooLong 0 s) :=
  (next_accept_of_idle hidle _).trans (congrArg _ (if_pos hlen))

/-- A payload that fits is framed and handed to the link in one write (R166). -/
theorem exec_encFrame_of_le (hidle : s.progress = .idle) (hlen : s.txLen.toNat ≤ 1024)
    (hf : frameEncode (bufferBytes s .txbuf s.txLen.toNat) = some f) :
    exec .encFrame s = .next (sendFrame f s) := by
  have hframe : frameBytes (txPayload s) = f := by
    rw [frameEncode_of_le (by rwa [bufferBytes_length])] at hf
    exact Option.some.inj hf
  rw [← hframe]
  exact (next_accept_of_idle hidle _).trans (congrArg _ (if_neg (Nat.not_lt.2 hlen)))

end

/-- Settles O25: after the length check, one case for each answer of the link to the write. -/
theorem encodeFrame : Obligations.EncodeFrame := by
  refine ⟨fun arg => decodeCmd_cmdWord _ _, fun s hidle hlen => exec_encFrame_of_too_long hidle hlen,
    fun s f hidle hlen hf hw => ?_, fun s f n hidle hlen hf hw hn => ?_, fun s f n hidle hlen hf hw hn => ?_⟩
  · rw [exec_encFrame_of_le hidle hlen hf, sendFrame_of_transportError hw, txWrite_of_transportError hw]
  · rw [exec_encFrame_of_le hidle hlen hf, sendFrame_of_short hw hn, txFlush_txWrite_of_accepted hw]
  · rw [exec_encFrame_of_le hidle hlen hf, sendFrame_of_whole hw hn, txFlush_txWrite_of_accepted hw,
      List.take_of_length_le hn]

end Sys2Proof.Machine
end

section
/-! SUPPORT. The frame decoder's operations one by one (spec/42_frame_decoder.md R181 to R192): one equation of the decoder
for each state and each kind of byte, and from them the statements on a single operation. -/

namespace Sys2Proof.Machine

/-! ## Starting, failing and resetting the decoder -/

theorem exec_decStart_of_idle {s : State} (hidle : s.progress = .idle) (hs : s.dec.state = .idle) :
    exec .decStart s = .next { startDecoder s with progress := .decode } :=
  (next_accept_of_idle hidle _).trans (congrArg _ (if_neg (not_not.2 hs)))

theorem exec_decStart_refused {s : State} (hidle : s.progress = .idle) (hs : s.dec.state ≠ .idle) :
    exec .decStart s = .next (refuse s) :=
  (next_accept_of_idle hidle _).trans (congrArg _ (if_pos hs))

/-- Settles O26: the decoder's registers after the start are those of reset, in `Syncing`. -/
theorem decoderStart : Obligations.DecoderStart :=
  ⟨fun _ => decodeCmd_cmdWord _ _, fun _ hidle hs => exec_decStart_of_idle hidle hs,
    fun _ hidle hs => exec_decStart_refused hidle hs⟩

/-- Forgetting RXBUF, whose addresses are those below 2^32, leaves every other byte (R34, R60). -/
theorem Memory.readAt_forget_rxbuf (m : Memory) :
    (∀ i, i < 2 ^ 32 → (m.forget .rxbuf).readAt (Memory.addr .rxbuf i) = none) ∧
      ∀ a, 2 ^ 32 ≤ a → (m.forget .rxbuf).readAt a = m.readAt a := by
  refine ⟨fun i hi => ?_, fun a ha => ?_⟩
  · rw [Memory.readAt_forget, if_pos (by simp only [Memory.addr]; omega)]
  · rw [Memory.readAt_forget, if_neg (by simp only [Memory.addr, Space.id]; omega)]

/-- Settles O28: `fail(E)` forgets RXBUF and sets two registers. -/
theorem decoderFailureRecorded : Obligations.DecoderFailureRecorded :=
  fun _ s => ⟨s.mem.forget .rxbuf, rfl, Memory.readAt_forget_rxbuf s.mem⟩

/-- Settles O29: the registers are those of reset, and RXBUF is forgotten. -/
theorem decoderReset : Obligations.DecoderReset :=
  ⟨fun _ => decodeCmd_cmdWord _ _,
    fun s hidle => ⟨s.mem.forget .rxbuf, next_accept_of_idle hidle _, Memory.readAt_forget_rxbuf s.mem⟩⟩

/-! ## The end of an event -/

section
variable {s : State} {b : Byte}

theorem afterEvent_of_reading (h : s.dec.state.reading = true) : afterEvent s = s := if_pos h

theorem afterEvent_of_decode (hr : s.dec.state.reading = false) (hp : s.progress = .decode) :
    afterEvent s = respondDecode s := by
  simp [afterEvent, hr, hp]

theorem respondDecode_of_complete (h : s.dec.state = .complete) :
    respondDecode s = respond .none (s.dec.len.setWidth 32) s := if_pos h

theorem respondDecode_of_syncTimeout (hs : s.dec.state = .failed) (he : s.dec.err = .frameSyncTimeout) :
    respondDecode s = respond .frameSyncTimeout s.dec.discard s := by
  simp [respondDecode, hs, he]

theorem respondDecode_of_failed (hs : s.dec.state = .failed) (he : s.dec.err ≠ .frameSyncTimeout) :
    respondDecode s = respond s.dec.err 0 s := by
  simp [respondDecode, hs, he]

theorem reading_of_complete (h : s.dec.state = .complete) : s.dec.state.reading = false := congrArg _ h

theorem reading_of_failed (h : s.dec.state = .failed) : s.dec.state.reading = false := congrArg _ h

theorem onEvent_of_reading (h : s.dec.state.reading = true) (f : State → State) : onEvent f s = afterEvent (f s) :=
  if_pos h

theorem onEvent_of_not_reading (h : s.dec.state.reading = false) (f : State → State) : onEvent f s = s :=
  if_neg (by simp [h])

theorem exec_rxByte_of_reading (h : s.dec.state.reading = true) :
    exec (.rxByte b) s = .next (afterEvent (receiveByte b s)) :=
  congrArg _ (onEvent_of_reading h _)

end

/-- Settles O27: by the state the decoder ended in, and the error of a failed one. -/
theorem decodeCommandAnswered : Obligations.DecodeCommandAnswered := by
  refine fun s => ⟨afterEvent_of_reading, fun hp hs => ?_, fun hp hs he => ?_, fun hp hs he => ?_⟩
  · rw [afterEvent_of_decode (reading_of_complete hs) hp, respondDecode_of_complete hs]
  · rw [afterEvent_of_decode (reading_of_failed hs) hp, respondDecode_of_syncTimeout hs he]
  · rw [afterEvent_of_decode (reading_of_failed hs) hp, respondDecode_of_failed hs he]

/-- Settles O35: in a reading state each event fails the decoder with its error; outside one `onEvent` does nothing. -/
theorem timeoutErrorAndAbort : Obligations.TimeoutErrorAndAbort := by
  refine ⟨fun s hr => ⟨?_, ?_, ?_⟩, fun s b hr => ⟨?_, ?_, ?_, ?_⟩⟩
  · refine congrArg _ ((onEvent_of_reading hr _).trans (congrArg afterEvent ?_))
    unfold receiveTimeout
    split <;> rfl
  · exact congrArg _ (onEvent_of_reading hr _)
  · exact congrArg _ (onEvent_of_reading hr _)
  all_goals exact congrArg _ (onEvent_of_not_reading hr _)

/-! ## One equation for each state and kind of byte -/

/-- Two bytes put together as the decoder does, the more significant one first (R62, R185, R187). -/
theorem shiftLeft_or_eq_append (hi lo : Byte) : (hi.setWidth 16 <<< 8) ||| lo.setWidth 16 = hi ++ lo := by
  apply BitVec.eq_of_toNat_eq
  have hhi : hi.toNat <<< 8 % 2 ^ 16 = hi.toNat <<< 8 := Nat.mod_eq_of_lt (by rw [Nat.shiftLeft_eq]; omega)
  have hlo : lo.toNat % 2 ^ 16 = lo.toNat := Nat.mod_eq_of_lt (by omega)
  have hhi16 : hi.toNat % 2 ^ 16 = hi.toNat := Nat.mod_eq_of_lt (by omega)
  simp only [BitVec.toNat_or, BitVec.toNat_shiftLeft, BitVec.toNat_setWidth, BitVec.toNat_append, hhi, hlo, hhi16]

theorem toNat_append_bytes (hi lo : Byte) : (hi ++ lo).toNat = 256 * hi.toNat + lo.toNat := by
  rw [BitVec.toNat_append, ← Nat.shiftLeft_add_eq_or_of_lt lo.isLt, Nat.shiftLeft_eq]
  omega

theorem append_bytes_eq_ofNat (hi lo : Byte) : hi ++ lo = BitVec.ofNat 16 (256 * hi.toNat + lo.toNat) := by
  rw [← toNat_append_bytes, BitVec.ofNat_toNat, BitVec.setWidth_eq]

section
variable {s : State} {b : Byte}

theorem receiveByte_of_syncing (h : s.dec.state = .syncing) : receiveByte b s = rxSyncing b s := by
  simp only [receiveByte, h]

theorem receiveByte_of_readingLength (h : s.dec.state = .readingLength) : receiveByte b s = rxLength b s := by
  simp only [receiveByte, h]

theorem receiveByte_of_readingPayload (h : s.dec.state = .readingPayload) :
    receiveByte b s = rxPayloadByte b s := by
  simp only [receiveByte, h]

theorem receiveByte_of_readingCrc (h : s.dec.state = .readingCrc) : receiveByte b s = rxCrcByte b s := by
  simp only [receiveByte, h]

theorem receiveByte_of_readingEnd (h : s.dec.state = .readingEnd) : receiveByte b s = rxEnd b s := by
  simp only [receiveByte, h]

theorem rxSyncing_sof :
    rxSyncing 0x7E s = { s with dec := { s.dec with state := .readingLength, idx := false } } := rfl

/-- A byte that is no start byte is counted, up to the largest count (R33, R184). -/
theorem rxSyncing_of_ne (hb : b ≠ 0x7E) :
    rxSyncing b s =
      { s with dec := { s.dec with discard := BitVec.ofNat 32 (min (s.dec.discard.toNat + 1) 0xFFFFFFFF) } } := by
  rw [rxSyncing, if_neg (by exact hb)]
  split
  · next hmax =>
    have hsame : BitVec.ofNat 32 (min (s.dec.discard.toNat + 1) 0xFFFFFFFF) = s.dec.discard := by rw [hmax]; rfl
    rw [hsame]
  · next hmax =>
    have hlt : s.dec.discard.toNat < 0xFFFFFFFF := by bv_omega
    have hnext : BitVec.ofNat 32 (min (s.dec.discard.toNat + 1) 0xFFFFFFFF) = s.dec.discard + 1 := by
      rw [Nat.min_eq_left (by omega)]
      bv_omega
    rw [hnext]

theorem rxLength_first (h : s.dec.idx = false) :
    rxLength b s = { s with dec := { s.dec with lenb0 := b, idx := true } } := if_pos h

/-- The second length byte: the length `n` is too large, or 0, or the payload begins (R185). -/
theorem rxLength_second (h : s.dec.idx = true) {n : Nat} (hn : n < 2 ^ 16)
    (hlen : s.dec.lenb0 ++ b = BitVec.ofNat 16 n) :
    rxLength b s =
      (let d := { s.dec with lenb1 := b, idx := false, len := BitVec.ofNat 16 n }
       if 1024 < n then rxFail .frameLengthInvalid { s with dec := d }
       else if n = 0 then { s with dec := { d with state := .readingCrc } }
       else { s with dec := { d with state := .readingPayload, cnt := 0, esc := false } }) := by
  have htoNat : (BitVec.ofNat 16 n).toNat = n := Nat.mod_eq_of_lt hn
  have hzero : BitVec.ofNat 16 n = 0 ↔ n = 0 := by rw [← BitVec.toNat_inj, htoNat]; rfl
  rw [rxLength, if_neg (by simp [h]), shiftLeft_or_eq_append, hlen]
  simp only [htoNat, hzero]
  rfl

theorem rxPayloadByte_escape (h : s.dec.esc = false) :
    rxPayloadByte 0x7D s = { s with dec := { s.dec with esc := true } } := by
  rw [rxPayloadByte, if_neg (by simp [h])]
  exact if_pos rfl

theorem rxPayloadByte_marker (h : s.dec.esc = false) (hb : b = 0x7E ∨ b = 0x7F) :
    rxPayloadByte b s = rxFail .frameEscapeViolation s := by
  rw [rxPayloadByte, if_neg (by simp [h])]
  obtain rfl | rfl := hb <;> rfl

theorem rxPayloadByte_plain (h : s.dec.esc = false) (hb : needsEscape b = false) :
    rxPayloadByte b s = storePayload b s := by
  obtain ⟨-, -, hesc⟩ := (needsEscape_eq_false_iff b).1 hb
  rw [rxPayloadByte, if_neg (by simp [h]), if_neg (by exact hesc), if_neg (by simp [hb])]

theorem rxPayloadByte_partner (h : s.dec.esc = true) (hb : escapePartner b = true) :
    rxPayloadByte b s = storePayload (b ^^^ escXor) s := by
  rw [rxPayloadByte, if_pos h, if_pos hb]

theorem rxPayloadByte_no_partner (h : s.dec.esc = true) (hb : escapePartner b = false) :
    rxPayloadByte b s = rxFail .frameEscapeViolation s := by
  rw [rxPayloadByte, if_pos h, if_neg (by simp [hb])]

/-- Storing a byte is one write and the next count; the last one ends the field (R186). -/
theorem storePayload_eq (v : Byte) (s : State) :
    storePayload v s = { writeBuffer .rxbuf s.dec.cnt.toNat [v] s with
      dec := if (s.dec.cnt + 1).toNat = s.dec.len.toNat then
          { s.dec with cnt := s.dec.cnt + 1, esc := false, state := .readingCrc, idx := false }
        else { s.dec with cnt := s.dec.cnt + 1, esc := false } } := by
  unfold storePayload
  dsimp only
  split <;> rfl

/-- After a stored byte the decoder reads on, in the payload or in the CRC field (R186). -/
theorem reading_storePayload (hs : s.dec.state = .readingPayload) (v : Byte) :
    (storePayload v s).dec.state.reading = true := by
  rw [storePayload_eq]
  dsimp only
  split
  · rfl
  · exact congrArg RxState.reading hs

theorem rxCrcByte_first (h : s.dec.idx = false) :
    rxCrcByte b s = { s with dec := { s.dec with crc := b.setWidth 16 <<< 8, idx := true } } := if_pos h

theorem rxCrcByte_second (h : s.dec.idx = true) :
    rxCrcByte b s = { s with dec := { s.dec with
      crc := s.dec.crc ||| b.setWidth 16, idx := false, state := .readingEnd } } :=
  if_neg (by simp [h])

end

/-! ## The statements on a byte -/

/-- Settles O30: the start byte, or one more discarded byte. -/
theorem byteInSyncing : Obligations.ByteInSyncing := by
  intro s b hs
  rw [exec_rxByte_of_reading (congrArg _ hs), receiveByte_of_syncing hs]
  by_cases hb : b = 0x7E
  · subst hb
    rw [if_pos rfl, rxSyncing_sof]
    rfl
  · rw [if_neg hb, rxSyncing_of_ne hb]
    exact congrArg _ (afterEvent_of_reading (congrArg RxState.reading hs))

/-- Settles O31: the two bytes are the length, and only a length over 1024 leaves the reading states. -/
theorem byteInReadingLength : Obligations.ByteInReadingLength := by
  refine ⟨fun s b hs hidx => ?_, fun s b hs hidx => ?_⟩
  · rw [exec_rxByte_of_reading (congrArg _ hs), receiveByte_of_readingLength hs, rxLength_first hidx]
    exact congrArg _ (afterEvent_of_reading (congrArg RxState.reading hs))
  · rw [exec_rxByte_of_reading (congrArg _ hs), receiveByte_of_readingLength hs,
      rxLength_second hidx (by omega) (append_bytes_eq_ofNat _ _)]
    dsimp only
    split
    · rfl
    · split <;> rfl

/-- Settles O32: the ways to fail by the escape's rules; every stored byte is one write at `RX_CNT`. -/
theorem byteInReadingPayload : Obligations.ByteInReadingPayload := by
  intro s b hs
  rw [exec_rxByte_of_reading (congrArg _ hs), receiveByte_of_readingPayload hs]
  refine ⟨fun hesc hb => ?_, fun hesc hb => ?_, fun hesc h5E h5F h5D => ?_, fun v hv => ?_⟩
  · subst hb
    rw [rxPayloadByte_escape hesc]
    exact congrArg _ (afterEvent_of_reading (congrArg RxState.reading hs))
  · rw [rxPayloadByte_marker hesc hb]
  · rw [rxPayloadByte_no_partner hesc ((escapePartner_eq_false_iff b).2 ⟨h5E, h5F, h5D⟩)]
  · have hstore : rxPayloadByte b s = storePayload v s := by
      obtain ⟨hesc, h7D, h7E, h7F, rfl⟩ | ⟨hesc, hpartner, rfl⟩ := hv
      · exact rxPayloadByte_plain hesc ((needsEscape_eq_false_iff v).2 ⟨h7E, h7F, h7D⟩)
      · exact rxPayloadByte_partner hesc ((escapePartner_iff b).2 hpartner)
    rw [hstore, afterEvent_of_reading (reading_storePayload hs v), storePayload_eq]
    exact ⟨_, rfl, readAt_writeBuffer_single .rxbuf _ v s⟩

/-- Settles O33: the first byte is kept above the second. -/
theorem byteInReadingCrc : Obligations.ByteInReadingCrc := by
  intro s b hs
  rw [exec_rxByte_of_reading (congrArg _ hs), receiveByte_of_readingCrc hs]
  cases hidx : s.dec.idx
  · rw [rxCrcByte_first hidx]
    exact congrArg _ (afterEvent_of_reading (congrArg RxState.reading hs))
  · rw [rxCrcByte_second hidx]
    rfl

/-- Settles O34: `rxEnd` is the statement's chain of tests. -/
theorem byteInReadingEnd : Obligations.ByteInReadingEnd := by
  intro s b hs
  rw [exec_rxByte_of_reading (congrArg _ hs), receiveByte_of_readingEnd hs]
  rfl

end Sys2Proof.Machine
end

section
/-! SUPPORT. The transitions of `RX_STATE` (spec/42_frame_decoder.md R197): what a byte makes of each reading state, and
the operations that leave the decoder alone. -/

namespace Sys2Proof.Machine

/-! ## A byte -/

section
variable {s : State} {b : Byte}

theorem byteMoves_rxSyncing (hs : s.dec.state = .syncing) : byteMoves .syncing (rxSyncing b s).dec.state = true := by
  unfold rxSyncing
  split
  · rfl
  · split <;> exact congrArg (byteMoves .syncing) hs

theorem byteMoves_rxLength (hs : s.dec.state = .readingLength) :
    byteMoves .readingLength (rxLength b s).dec.state = true := by
  unfold rxLength
  split
  · exact congrArg (byteMoves .readingLength) hs
  · dsimp only
    split
    · rfl
    · split <;> rfl

theorem byteMoves_storePayload (hs : s.dec.state = .readingPayload) (v : Byte) :
    byteMoves .readingPayload (storePayload v s).dec.state = true := by
  rw [storePayload_eq]
  dsimp only
  split
  · rfl
  · exact congrArg (byteMoves .readingPayload) hs

theorem byteMoves_rxPayloadByte (hs : s.dec.state = .readingPayload) :
    byteMoves .readingPayload (rxPayloadByte b s).dec.state = true := by
  unfold rxPayloadByte
  split
  · split
    · exact byteMoves_storePayload hs _
    · rfl
  · split
    · exact congrArg (byteMoves .readingPayload) hs
    · split
      · rfl
      · exact byteMoves_storePayload hs _

theorem byteMoves_rxCrcByte (hs : s.dec.state = .readingCrc) :
    byteMoves .readingCrc (rxCrcByte b s).dec.state = true := by
  unfold rxCrcByte
  split
  · exact congrArg (byteMoves .readingCrc) hs
  · rfl

theorem byteMoves_rxEnd : byteMoves .readingEnd (rxEnd b s).dec.state = true := by
  unfold rxEnd
  split
  · rfl
  · split <;> rfl

/-- The table's row of each reading state for a byte (R197). -/
theorem byteMoves_receiveByte (hr : s.dec.state.reading = true) :
    byteMoves s.dec.state (receiveByte b s).dec.state = true := by
  cases hs : s.dec.state with
  | syncing => rw [receiveByte_of_syncing hs]; exact byteMoves_rxSyncing hs
  | readingLength => rw [receiveByte_of_readingLength hs]; exact byteMoves_rxLength hs
  | readingPayload => rw [receiveByte_of_readingPayload hs]; exact byteMoves_rxPayloadByte hs
  | readingCrc => rw [receiveByte_of_readingCrc hs]; exact byteMoves_rxCrcByte hs
  | readingEnd => rw [receiveByte_of_readingEnd hs]; exact byteMoves_rxEnd
  | idle | complete | failed => simp [hs, RxState.reading] at hr

/-! ## Operations that leave the decoder alone -/

theorem respondDecode_dec : (respondDecode s).dec = s.dec := by
  obtain ⟨-, heq⟩ | ⟨-, -, heq⟩ | ⟨-, -, heq⟩ := respondDecode_cases s <;> rw [heq] <;> rfl

/-- Outside an exchange the end of an event answers at most (R181). -/
theorem afterEvent_dec (hp : ∀ p b k, s.progress ≠ .exchange p b k) : (afterEvent s).dec = s.dec := by
  obtain ⟨-, heq⟩ | ⟨-, -, heq⟩ | ⟨-, -, heq⟩ | ⟨p, b, k, -, hexchange, -⟩ := afterEvent_cases s
  · rw [heq]
  · rw [heq]
  · rw [heq]; exact respondDecode_dec
  · exact absurd hexchange (hp p b k)

/-- Outside an exchange an event is the decoder's alone. -/
theorem onEvent_dec {f : State → State} (hf : DecoderOnly f) (hp : ∀ p b k, s.progress ≠ .exchange p b k)
    (hr : s.dec.state.reading = true) : (onEvent f s).dec = (f s).dec := by
  rw [onEvent_of_reading hr]
  refine afterEvent_dec ?_
  obtain ⟨d, m, k, heq⟩ := hf s
  rw [heq]; exact hp

theorem accept_dec {f : State → State} (hf : (f s).dec = s.dec) : (accept s f).dec = s.dec := by
  obtain ⟨-, heq⟩ | ⟨-, heq⟩ := accept_cases s f <;> rw [heq]
  exact hf

theorem answer_dec (v : Option Word) : (answer v s).dec = s.dec := by
  cases v <;> rfl

theorem sendFrame_dec (hno : noResetDuringCall s) (f : List Byte) : (sendFrame f s).dec = s.dec := by
  obtain ⟨hwrite, -, -⟩ := hno
  obtain ⟨n, -, -, heq⟩ | ⟨n, -, -, heq⟩ | ⟨-, heq⟩ | ⟨n, hreset, -⟩ := sendFrame_cases f s
  · rw [heq]; rfl
  · rw [heq]; rfl
  · rw [heq]; rfl
  · exact absurd hreset (hwrite n)

end

section
variable {s t : State}

theorem execEncFrame_dec (hno : noResetDuringCall s) (h : execEncFrame s = .next t) : t.dec = s.dec := by
  cases h
  refine accept_dec ?_
  split
  · rfl
  · exact sendFrame_dec hno _

theorem execClOpen_dec (hno : noResetDuringCall s) (h : execClOpen s = .next t) : t.dec = s.dec := by
  obtain ⟨-, hopen, -⟩ := hno
  cases h
  refine accept_dec ?_
  split
  · rfl
  · split
    · rfl
    · rfl
    · exact absurd ‹_› hopen

theorem execClClose_dec (hno : noResetDuringCall s) (h : execClClose s = .next t) : t.dec = s.dec := by
  obtain ⟨-, -, hclose⟩ := hno
  cases h
  refine accept_dec ?_
  split
  · rfl
  · split
    · rfl
    · exact absurd ‹_› hclose

/-! ## The decoder's own operations -/

/-- The state after an event in a reading state is the one of the table's row; outside one nothing happens. -/
theorem onEvent_moves {f : State → State} {moves : RxState → RxState → Bool} (hf : DecoderOnly f)
    (hp : ∀ p b k, s.progress ≠ .exchange p b k)
    (hmoves : s.dec.state.reading = true → moves s.dec.state (f s).dec.state = true) :
    (onEvent f s).dec.state = s.dec.state ∨ moves s.dec.state (onEvent f s).dec.state = true := by
  cases hr : s.dec.state.reading
  · exact .inl (by rw [onEvent_of_not_reading hr])
  · exact .inr (by rw [onEvent_dec hf hp hr]; exact hmoves hr)

theorem execDecStart_moves (h : execDecStart s = .next t) :
    t.dec.state = s.dec.state ∨ decoderMoves .decStart s.dec.state t.dec.state = true := by
  cases h
  obtain ⟨-, heq⟩ | ⟨-, heq⟩ := accept_cases s _ <;> rw [heq]
  · exact .inl rfl
  · split
    · exact .inl rfl
    · next hidle => exact .inr (by rw [not_not.1 hidle]; rfl)

theorem execDecReset_moves (hr : s.dec.state.reading = false) (h : execDecReset s = .next t) :
    t.dec.state = s.dec.state ∨ decoderMoves .decReset s.dec.state t.dec.state = true := by
  cases h
  obtain ⟨-, heq⟩ | ⟨-, heq⟩ := accept_cases s _ <;> rw [heq]
  · exact .inl rfl
  · exact .inr (by simp [decoderMoves, hr, Decoder.reset])

end

/-- Settles O36: the decoder's own operations by the table's rows, and every other one leaves the decoder alone. -/
theorem decoderTransitions : Obligations.DecoderTransitions := by
  intro i s t hphase hp hcommand hno h
  cases i with
  | rxByte b => cases h; exact onEvent_moves (decoderOnly_receiveByte b) hp byteMoves_receiveByte
  | rxTimeout =>
    cases h
    refine onEvent_moves (moves := decoderMoves .rxTimeout) decoderOnly_receiveTimeout hp fun hr => ?_
    simp [decoderMoves, hr, receiveTimeout_dec_state]
  | rxError =>
    cases h
    exact onEvent_moves (moves := decoderMoves .rxError) (decoderOnly_rxFail _) hp fun hr => by simp [decoderMoves, hr]
  | sigAbort =>
    cases h
    exact onEvent_moves (moves := decoderMoves .sigAbort) (decoderOnly_rxFail _) hp fun hr => by simp [decoderMoves, hr]
  | sigReset => cases h; exact .inr rfl
  | decStart => exact execDecStart_moves h
  | decReset => exact execDecReset_moves (hcommand rfl) h
  | encFrame => exact .inl (congrArg _ (execEncFrame_dec hno h))
  | clOpen => exact .inl (congrArg _ (execClOpen_dec hno h))
  | clClose => exact .inl (congrArg _ (execClClose_dec hno h))
  | clHandshake | clPrepare | clTransfer | clVerify | clRunSession => cases hphase
  | rd | bufRead | logRead => cases h; exact .inl (congrArg _ (accept_dec (answer_dec _)))
  | txbufPush b => cases h; exact .inl (congrArg _ (accept_dec (pushTxbuf_dec b s)))
  | dbufPush b => cases h; exact .inl (congrArg _ (accept_dec (pushDbuf_dec b s)))
  | nop | crc16Init | crc16Update | crc16Read | crc32Init | crc32Update | crc32Read | txbufClear | dbufClear =>
    cases h; exact .inl (congrArg _ (accept_dec rfl))

end Sys2Proof.Machine
end

section
/-! SUPPORT. Runs of the frame decoder (spec/42_frame_decoder.md R193 to R196): the decoder's way over a list of bytes,
apart from the link that delivers them; that the block goes that way, one byte a step; and, along the parts of a frame, the
statements on garbage and on whole frames. -/

namespace Sys2Proof.Machine

/-! ## The bytes and the link -/

/-- The state with a receive stream. -/
def withRx (rx : List RxSymbol) (s : State) : State := { s with link := { s.link with rx := rx } }

@[simp] theorem withRx_dec (rx : List RxSymbol) (s : State) : (withRx rx s).dec = s.dec := rfl
@[simp] theorem withRx_port (rx : List RxSymbol) (s : State) : (withRx rx s).port = s.port := rfl

/-! Each choice of the decoder looks at its own registers and at RXBUF, so the receive stream passes it by. -/

theorem rxSyncing_withRx (b : Byte) (rx : List RxSymbol) (s : State) :
    rxSyncing b (withRx rx s) = withRx rx (rxSyncing b s) := by
  simp only [rxSyncing, apply_ite (withRx rx)]
  rfl

theorem rxLength_withRx (b : Byte) (rx : List RxSymbol) (s : State) :
    rxLength b (withRx rx s) = withRx rx (rxLength b s) := by
  simp only [rxLength, apply_ite (withRx rx)]
  rfl

theorem storePayload_withRx (v : Byte) (rx : List RxSymbol) (s : State) :
    storePayload v (withRx rx s) = withRx rx (storePayload v s) := by
  rw [storePayload_eq, storePayload_eq]
  rfl

theorem rxPayloadByte_withRx (b : Byte) (rx : List RxSymbol) (s : State) :
    rxPayloadByte b (withRx rx s) = withRx rx (rxPayloadByte b s) := by
  simp only [rxPayloadByte, apply_ite (withRx rx), storePayload_withRx]
  rfl

theorem rxCrcByte_withRx (b : Byte) (rx : List RxSymbol) (s : State) :
    rxCrcByte b (withRx rx s) = withRx rx (rxCrcByte b s) := by
  simp only [rxCrcByte, apply_ite (withRx rx)]
  rfl

theorem rxEnd_withRx (b : Byte) (rx : List RxSymbol) (s : State) :
    rxEnd b (withRx rx s) = withRx rx (rxEnd b s) := by
  simp only [rxEnd, apply_ite (withRx rx)]
  rfl

/-- What a byte does to the decoder does not depend on what follows it in the link. -/
theorem receiveByte_withRx (b : Byte) (rx : List RxSymbol) (s : State) :
    receiveByte b (withRx rx s) = withRx rx (receiveByte b s) := by
  simp only [receiveByte, withRx_dec, rxSyncing_withRx, rxLength_withRx, rxPayloadByte_withRx, rxCrcByte_withRx,
    rxEnd_withRx]
  split <;> rfl

/-! ## The decoder along a list of bytes -/

/-- The decoder takes a list of bytes from `s` to `t` and is in a reading state before and after each of them. -/
inductive Reads : State → List Byte → State → Prop where
  | nil (s : State) : Reads s [] s
  | cons {s t : State} {b : Byte} {bs : List Byte} : s.dec.state.reading = true →
      (receiveByte b s).dec.state.reading = true → Reads (receiveByte b s) bs t → Reads s (b :: bs) t

namespace Reads

variable {s t u : State} {b : Byte} {bs cs : List Byte}

theorem append (h : Reads s bs t) (h' : Reads t cs u) : Reads s (bs ++ cs) u := by
  induction h with
  | nil => exact h'
  | cons hr hnext _ ih => exact .cons hr hnext (ih h')

theorem single (hs : s.dec.state.reading = true) (ht : t.dec.state.reading = true) (h : receiveByte b s = t) :
    Reads s [b] t := by
  subst h
  exact .cons hs ht (.nil _)

end Reads

/-! ## The block goes the decoder's way -/

/-- A run begins with a step. -/
theorem run_succ_of_step {s t : State} (h : step s = .next t) (n : Nat) :
    Host.Core.run Sys2Proof.core (n + 1) s = Host.Core.run Sys2Proof.core n t := by
  have hcore : Sys2Proof.core.step s = .next t := h
  simp only [Host.Core.run, hcore]

section
variable {s t : State} {b : Byte} {bs : List Byte}

theorem receiveByte_port : (receiveByte b s).port = s.port := by
  obtain ⟨d, m, k, heq⟩ := decoderOnly_receiveByte b s
  rw [heq]

theorem receiveByte_progress : (receiveByte b s).progress = s.progress := by
  obtain ⟨d, m, k, heq⟩ := decoderOnly_receiveByte b s
  rw [heq]

/-- A reading block with both wires low takes the byte at the front of the link (R65, R183). -/
theorem step_of_byte (hr : s.dec.state.reading = true) (hw : s.port.wires = []) (rest : List RxSymbol) :
    step (withRx (b.setWidth 9 :: rest) s) = .next (afterEvent (withRx rest (receiveByte b s))) := by
  have hwires : s.port.wires.tail = s.port.wires := by rw [hw]; rfl
  have hsample : (withRx (b.setWidth 9 :: rest) s).port.wires.headD 0 = 0 := congrArg (List.headD · 0) hw
  rw [step_runs_event (s := withRx (b.setWidth 9 :: rest) s) hr hsample rfl (decodeRx_setWidth b),
    withRx_port, hwires, ← receiveByte_withRx]
  exact exec_rxByte_of_reading (s := withRx rest s) hr

namespace Reads

/-- The block takes the bytes of a reading decoder's way one a step, and the stream after them stays in the link. -/
theorem run (h : Reads s bs t) (hw : s.port.wires = []) (rest : List RxSymbol) (n : Nat) :
    Host.Core.run Sys2Proof.core (bs.length + n) (withRx (byteSymbols bs ++ rest) s) =
      Host.Core.run Sys2Proof.core n (withRx rest t) := by
  induction h with
  | nil => rw [List.length_nil, Nat.zero_add]; rfl
  | @cons s t b bs hr hnext _ ih =>
    have hstep := step_of_byte (b := b) hr hw (byteSymbols bs ++ rest)
    rw [afterEvent_of_reading (by exact hnext)] at hstep
    rw [List.length_cons, Nat.succ_add]
    exact (run_succ_of_step hstep _).trans (ih (receiveByte_port.symm ▸ hw))

end Reads

end

/-! ## The parts of a frame -/

section
variable {s : State}

/-- The search drops every byte before the start byte (R184, R194). -/
theorem reads_garbage {g : List Byte} (hs : s.dec.state = .syncing) (hg : 0x7E ∉ g) :
    Reads s g { s with dec := { s.dec with
      discard := BitVec.ofNat 32 (min (s.dec.discard.toNat + g.length) 0xFFFFFFFF) } } := by
  induction g generalizing s with
  | nil =>
    have hsame : BitVec.ofNat 32 (min (s.dec.discard.toNat + 0) 0xFFFFFFFF) = s.dec.discard := by bv_omega
    rw [List.length_nil, hsame]
    exact .nil s
  | cons b g ih =>
    obtain ⟨hb, hg⟩ := not_or.1 (mt List.mem_cons.2 hg)
    have hreceive := (receiveByte_of_syncing (b := b) hs).trans (rxSyncing_of_ne fun h => hb h.symm)
    have hcount : min ((BitVec.ofNat 32 (min (s.dec.discard.toNat + 1) 0xFFFFFFFF)).toNat + g.length) 0xFFFFFFFF =
        min (s.dec.discard.toNat + (b :: g).length) 0xFFFFFFFF := by
      rw [BitVec.toNat_ofNat, List.length_cons]
      omega
    rw [← hcount]
    refine .cons (congrArg _ hs) (by rw [hreceive]; exact congrArg _ hs) ?_
    rw [hreceive]
    exact ih hs hg

theorem reads_sof (hs : s.dec.state = .syncing) :
    Reads s [0x7E] { s with dec := { s.dec with state := .readingLength, idx := false } } :=
  .single (congrArg _ hs) rfl (receiveByte_of_syncing hs)

/-- Two bytes written by `be16` are put together again (R62). -/
theorem be16_append (v : BitVec 16) : v.extractLsb' 8 8 ++ v.extractLsb' 0 8 = v :=
  (BitVec.extractLsb'_append_extractLsb'_eq_extractLsb' rfl).trans BitVec.extractLsb'_eq_self

/-- The two length bytes of an allowed length `n` (R185). -/
theorem reads_length {n : Nat} (hs : s.dec.state = .readingLength) (hidx : s.dec.idx = false) (hn : n ≤ 1024) :
    Reads s (be16 (BitVec.ofNat 16 n))
      (let d := { s.dec with
        lenb0 := (BitVec.ofNat 16 n).extractLsb' 8 8, lenb1 := (BitVec.ofNat 16 n).extractLsb' 0 8
        len := BitVec.ofNat 16 n, idx := false }
       if n = 0 then { s with dec := { d with state := .readingCrc } }
       else { s with dec := { d with state := .readingPayload, cnt := 0, esc := false } }) := by
  have hfirst : Reads s [(BitVec.ofNat 16 n).extractLsb' 8 8]
      { s with dec := { s.dec with lenb0 := (BitVec.ofNat 16 n).extractLsb' 8 8, idx := true } } :=
    .single (congrArg RxState.reading hs) (congrArg RxState.reading hs)
      ((receiveByte_of_readingLength hs).trans (rxLength_first hidx))
  have hsecond : rxLength ((BitVec.ofNat 16 n).extractLsb' 0 8)
      { s with dec := { s.dec with lenb0 := (BitVec.ofNat 16 n).extractLsb' 8 8, idx := true } } = _ :=
    rxLength_second rfl (by omega) (be16_append (BitVec.ofNat 16 n))
  rw [if_neg (Nat.not_lt.2 hn)] at hsecond
  refine hfirst.append (.single (congrArg RxState.reading hs) ?_
    ((receiveByte_of_readingLength (by exact hs)).trans hsecond))
  dsimp only
  split <;> rfl

/-- The wire bytes of one payload byte store it (R186). -/
theorem reads_escapeOne (hs : s.dec.state = .readingPayload) (hesc : s.dec.esc = false) (v : Byte) :
    Reads s (escapeOne v) (storePayload v s) := by
  obtain ⟨hplain, heq⟩ | ⟨-, c, hc, rfl, heq⟩ := escapeOne_cases v
  · rw [heq]
    exact .single (congrArg _ hs) (reading_storePayload hs v)
      ((receiveByte_of_readingPayload hs).trans (rxPayloadByte_plain hesc hplain))
  · rw [heq]
    have hescape : Reads s [escByte] { s with dec := { s.dec with esc := true } } :=
      .single (congrArg RxState.reading hs) (congrArg RxState.reading hs)
        ((receiveByte_of_readingPayload hs).trans (rxPayloadByte_escape hesc))
    have hstore : storePayload (c ^^^ escXor) { s with dec := { s.dec with esc := true } } =
        storePayload (c ^^^ escXor) s := by
      rw [storePayload_eq, storePayload_eq]
      rfl
    refine hescape.append (.single (congrArg RxState.reading hs) (reading_storePayload hs _) ?_)
    rw [receiveByte_of_readingPayload (by exact hs), rxPayloadByte_partner rfl hc, hstore]

/-- The escaped payload, the count being short of the length by as many bytes, is stored behind the bytes stored before,
and with its last byte the field ends (R186). -/
theorem reads_payload {p : List Byte} (hs : s.dec.state = .readingPayload) (hesc : s.dec.esc = false) (hp : p ≠ [])
    (hlen : s.dec.cnt.toNat + p.length = s.dec.len.toNat) (hmax : s.dec.len.toNat ≤ 1024) :
    Reads s (escape p) { s with
      mem := s.mem.writeList (Memory.addr .rxbuf s.dec.cnt.toNat) p
      dec := { s.dec with
        cnt := s.dec.cnt + BitVec.ofNat 11 p.length, esc := false, state := .readingCrc, idx := false } } := by
  induction p generalizing s with
  | nil => exact absurd rfl hp
  | cons v p ih =>
    rw [List.length_cons] at hlen
    have hnext : (s.dec.cnt + 1).toNat = s.dec.cnt.toNat + 1 := by bv_omega
    have hstored := reads_escapeOne hs hesc v
    rw [storePayload_eq] at hstored
    rw [escape_cons]
    match p with
    | [] =>
      rw [if_pos (by rw [hnext]; exact hlen)] at hstored
      exact hstored.append (.nil _)
    | w :: p =>
      rw [List.length_cons] at hlen
      rw [if_neg (by omega)] at hstored
      refine hstored.append ?_
      have haddr : Memory.addr .rxbuf (s.dec.cnt + 1).toNat = Memory.addr .rxbuf s.dec.cnt.toNat + 1 := by
        rw [hnext, Memory.addr, Memory.addr, Nat.add_assoc]
      have hcnt : s.dec.cnt + 1 + BitVec.ofNat 11 (w :: p).length =
          s.dec.cnt + BitVec.ofNat 11 (v :: w :: p).length := by
        simp only [List.length_cons]; bv_omega
      have hrest := ih (s := { writeBuffer .rxbuf s.dec.cnt.toNat [v] s with
        dec := { s.dec with cnt := s.dec.cnt + 1, esc := false } }) hs rfl nofun
        (by simp only [hnext, List.length_cons]; omega) hmax
      dsimp only at hrest
      rw [haddr, hcnt] at hrest
      exact hrest

/-- The two bytes of the CRC field (R187). -/
theorem reads_crc (hs : s.dec.state = .readingCrc) (hidx : s.dec.idx = false) (c : BitVec 16) :
    Reads s (be16 c) { s with dec := { s.dec with crc := c, idx := false, state := .readingEnd } } := by
  have hfirst : Reads s [c.extractLsb' 8 8]
      { s with dec := { s.dec with crc := (c.extractLsb' 8 8).setWidth 16 <<< 8, idx := true } } :=
    .single (congrArg RxState.reading hs) (congrArg RxState.reading hs)
      ((receiveByte_of_readingCrc hs).trans (rxCrcByte_first hidx))
  refine hfirst.append (.single (congrArg RxState.reading hs) rfl ?_)
  rw [receiveByte_of_readingCrc (by exact hs), rxCrcByte_second rfl, shiftLeft_or_eq_append, be16_append]

end

/-! ## A whole frame -/

/-- The wire bytes of a payload with any CRC field (R92), without the end byte. -/
def frameHead (p : List Byte) (c : BitVec 16) : List Byte :=
  [0x7E] ++ ((be16 (BitVec.ofNat 16 p.length) ++ escape p) ++ be16 c)

/-- With the CRC of R93 and the end byte it is the frame of the payload. -/
theorem frameHead_append_eof (p : List Byte) : frameHead p (crc16Ccitt (crcInput p)) ++ [0x7F] = frameBytes p := by
  simp [frameHead, frameBytes, sofByte, eofByte]

/-- The state with a payload in RXBUF and in the decoder's registers, the decoder being in state `x` after `k` dropped
bytes and with `RX_CRC` being `c` (R30 to R34). -/
def received (x : RxState) (p : List Byte) (c : BitVec 16) (k : BitVec 32) (s : State) : State :=
  { s with
    mem := s.mem.writeList (Memory.addr .rxbuf 0) p
    dec := {
      state := x, err := .none
      lenb0 := (BitVec.ofNat 16 p.length).extractLsb' 8 8, lenb1 := (BitVec.ofNat 16 p.length).extractLsb' 0 8
      len := BitVec.ofNat 16 p.length, cnt := BitVec.ofNat 11 p.length, esc := false, idx := false
      crc := c, discard := k } }

section
variable {s : State} {p : List Byte} {c : BitVec 16} {k : BitVec 32}

/-- Length and payload together, an empty payload having no payload state (R185, R186). -/
theorem reads_length_payload (hp : p.length ≤ 1024) :
    Reads { s with dec := { Decoder.reset with state := .readingLength, discard := k } }
      (be16 (BitVec.ofNat 16 p.length) ++ escape p) (received .readingCrc p 0 k s) := by
  have hlength := reads_length (s := { s with dec := { Decoder.reset with state := .readingLength, discard := k } })
    rfl rfl hp
  refine hlength.append ?_
  match p with
  | [] => exact .nil _
  | v :: p =>
    have hlen : (BitVec.ofNat 16 (v :: p).length).toNat = (v :: p).length := Nat.mod_eq_of_lt (by omega)
    rw [if_neg (by simp)]
    have hpayload := reads_payload (s := { s with dec := { Decoder.reset with
      state := .readingPayload, discard := k, lenb0 := (BitVec.ofNat 16 (v :: p).length).extractLsb' 8 8
      lenb1 := (BitVec.ofNat 16 (v :: p).length).extractLsb' 0 8, len := BitVec.ofNat 16 (v :: p).length } })
      (p := v :: p) rfl rfl nofun (by rw [hlen]; exact Nat.zero_add _) (by rw [hlen]; exact hp)
    have hcnt : Decoder.reset.cnt + BitVec.ofNat 11 (v :: p).length = BitVec.ofNat 11 (v :: p).length :=
      BitVec.zero_add _
    dsimp only at hpayload
    rw [hcnt] at hpayload
    exact hpayload

/-- Garbage and a frame up to its end byte, from the start of the search (R194, R195). -/
theorem reads_frameHead {g : List Byte} (hs : s.dec = { Decoder.reset with state := .syncing }) (hg : 0x7E ∉ g)
    (hp : p.length ≤ 1024) (c : BitVec 16) :
    Reads s (g ++ frameHead p c) (received .readingEnd p c (BitVec.ofNat 32 (min g.length 0xFFFFFFFF)) s) := by
  have hsyncing : s.dec.state = .syncing := by rw [hs]
  have hgarbage := reads_garbage hsyncing hg
  rw [hs, show (Decoder.reset.discard.toNat + g.length) = g.length from Nat.zero_add _] at hgarbage
  exact hgarbage.append ((reads_sof rfl).append ((reads_length_payload hp).append (reads_crc rfl rfl c)))

/-- What RXBUF holds once a payload has been received. -/
theorem rxPayload_received (x : RxState) (hp : p.length ≤ 1024) : rxPayload (received x p c k s) = p := by
  have hlen : (received x p c k s).dec.len.toNat = p.length := Nat.mod_eq_of_lt (by omega)
  rw [rxPayload, hlen]
  exact bufferBytes_eq_of_readAt fun i hi => Memory.readAt_writeList_inside p s.mem (Memory.addr .rxbuf 0) i hi

/-- The CRC over the length bytes as received and the payload is that of the frame (R93, R188). -/
theorem recomputedCrc_received (x : RxState) (hp : p.length ≤ 1024) :
    recomputedCrc (received x p c k s) = crc16Ccitt (crcInput p) := by
  rw [recomputedCrc, rxPayload_received x hp]
  rfl

theorem rxEnd_eof (s : State) :
    rxEnd 0x7F s = if recomputedCrc s ≠ s.dec.crc then rxFail .frameCrcMismatch s
      else { s with dec := { s.dec with state := .complete } } :=
  if_neg (not_not.2 rfl)

/-- The end byte completes a frame whose CRC matches (R188). -/
theorem rxEnd_received_of_match (hp : p.length ≤ 1024) (hc : c = crc16Ccitt (crcInput p)) :
    rxEnd 0x7F (received .readingEnd p c k s) = received .complete p c k s := by
  rw [rxEnd_eof, recomputedCrc_received _ hp]
  exact if_neg (not_not.2 hc.symm)

/-- The end byte fails a frame with any other CRC (R188). -/
theorem rxEnd_received_of_mismatch (hp : p.length ≤ 1024) (hc : c ≠ crc16Ccitt (crcInput p)) :
    rxEnd 0x7F (received .readingEnd p c k s) = rxFail .frameCrcMismatch (received .readingEnd p c k s) := by
  rw [rxEnd_eof, recomputedCrc_received _ hp]
  exact if_pos hc.symm

end

theorem reading_rxEnd (b : Byte) (s : State) : (rxEnd b s).dec.state.reading = false := by
  unfold rxEnd
  split
  · rfl
  · split <;> rfl

/-- The state after an accepted `DEC.START` with the words `cmds` left at the command port (R181). -/
def startedAt (cmds : List CmdWord) (s : State) : State :=
  { s with progress := .decode, dec := { Decoder.reset with state := .syncing }, port := { s.port with cmd := cmds } }

theorem byteSymbols_append (bs cs : List Byte) : byteSymbols (bs ++ cs) = byteSymbols bs ++ byteSymbols cs :=
  List.map_append

/-- `DEC.START` in an idle block with both wires low (R181). -/
theorem step_decStart {s : State} {w : CmdWord} {cmds : List CmdWord} (hidle : s.progress = .idle)
    (hdec : s.dec.state = .idle) (hw : s.port.wires = []) (hcmd : s.port.cmd = w :: cmds)
    (hdecode : decodeCmd w = .ok .decStart) : step s = .next (startedAt cmds s) := by
  have hwires : s.port.wires.tail = s.port.wires := by rw [hw]; rfl
  have hsample : (s.port.wires.headD 0).getLsbD 0 = false := by rw [hw]; rfl
  rw [step_runs_command hidle (by rw [hdec]; rfl) hsample hcmd hdecode, hwires]
  exact exec_decStart_of_idle hidle hdec

/-- The end byte ends `DEC.START`, with a complete frame or a failed one (R181, R188). -/
theorem step_endByte {s : State} (hs : s.dec.state = .readingEnd) (hw : s.port.wires = []) (hp : s.progress = .decode)
    (b : Byte) (rest : List RxSymbol) :
    step (withRx (b.setWidth 9 :: rest) s) = .next (respondDecode (withRx rest (rxEnd b s))) := by
  rw [step_of_byte (congrArg _ hs) hw rest, ← receiveByte_of_readingEnd hs]
  have hdone : (receiveByte b s).dec.state.reading = false := by
    rw [receiveByte_of_readingEnd hs]; exact reading_rxEnd b s
  exact congrArg _ (afterEvent_of_decode hdone (receiveByte_progress.trans hp))

/-- `DEC.START` and a whole frame after garbage: the block answers what the end byte makes of the received frame, and what
follows the frame stays in the link (R181, R193, R194). -/
theorem run_decStart_frame {s : State} {g p : List Byte} {c : BitVec 16} {w : CmdWord} {cmds : List CmdWord}
    {rest : List RxSymbol} (hidle : s.progress = .idle) (hdec : s.dec.state = .idle) (hw : s.port.wires = [])
    (hcmd : s.port.cmd = w :: cmds) (hdecode : decodeCmd w = .ok .decStart) (hg : 0x7E ∉ g) (hp : p.length ≤ 1024)
    (hrx : s.link.rx = byteSymbols (g ++ frameHead p c ++ [0x7F]) ++ rest) :
    Host.Core.run Sys2Proof.core (1 + (g ++ frameHead p c ++ [0x7F]).length) s =
      .next (respondDecode (withRx rest (rxEnd 0x7F
        (received .readingEnd p c (BitVec.ofNat 32 (min g.length 0xFFFFFFFF)) (startedAt cmds s))))) := by
  have hstream : s.link.rx = byteSymbols (g ++ frameHead p c) ++ ((0x7F : Byte).setWidth 9 :: rest) := by
    rw [hrx, byteSymbols_append, List.append_assoc]
    rfl
  have hlink : startedAt cmds s = withRx (byteSymbols (g ++ frameHead p c) ++ ((0x7F : Byte).setWidth 9 :: rest))
      (startedAt cmds s) := by
    rw [← hstream]
    rfl
  have hlength : 1 + (g ++ frameHead p c ++ [0x7F]).length = (g ++ frameHead p c).length + 1 + 1 := by
    rw [List.length_append, List.length_singleton, Nat.add_comm]
  have hreads := reads_frameHead (s := startedAt cmds s) rfl hg hp c
  have hend := step_endByte
    (s := received .readingEnd p c (BitVec.ofNat 32 (min g.length 0xFFFFFFFF)) (startedAt cmds s)) rfl hw rfl 0x7F rest
  rw [hlength, run_succ_of_step (step_decStart hidle hdec hw hcmd hdecode)]
  exact (congrArg (Host.Core.run Sys2Proof.core _) hlink).trans
    ((hreads.run hw _ 1).trans (run_succ_of_step hend 0))

/-! ## The statements -/

/-- Settles O37: the end byte completes the frame that `FrameEncode` has made. -/
theorem frameDecodedAfterGarbage : Obligations.FrameDecodedAfterGarbage := by
  intro s g p f w cmds rest hidle hdec hw hcmd hdecode hg hf hrx
  have hp : p.length ≤ 1024 := by
    by_contra hlong
    rw [frameEncode_of_too_long (Nat.lt_of_not_le hlong)] at hf
    cases hf
  obtain rfl : frameHead p (crc16Ccitt (crcInput p)) ++ [0x7F] = f := by
    rw [frameEncode_of_le hp] at hf
    exact (frameHead_append_eof p).trans (Option.some.inj hf)
  rw [← List.append_assoc] at hrx ⊢
  have hrun := run_decStart_frame hidle hdec hw hcmd hdecode hg hp hrx
  rw [rxEnd_received_of_match hp rfl, respondDecode_of_complete rfl] at hrun
  have hlen : (BitVec.ofNat 16 p.length).toNat = p.length := Nat.mod_eq_of_lt (by omega)
  have hword : (BitVec.ofNat 16 p.length).setWidth 32 = BitVec.ofNat 32 p.length := by bv_omega
  refine ⟨_, hrun, rfl, rxPayload_received .complete hp, hlen, ?_, ?_, rfl, rfl, rfl, rfl, ?_, rfl, rfl, rfl, rfl, rfl,
    rfl, rfl, fun a ha => ?_⟩
  · exact Nat.mod_eq_of_lt (by omega)
  · exact Nat.mod_eq_of_lt (by omega)
  · rw [← hword]; rfl
  · exact Memory.readAt_writeList_outside _ _ _ _ (.inr (by simp only [Memory.addr, Space.id]; omega))

/-- Settles O38: the end byte fails a frame whose CRC field is another one. -/
theorem corruptedCrcRejected : Obligations.CorruptedCrcRejected := by
  intro s p c w cmds rest hidle hdec hw hcmd hdecode hp hc hrx
  have hframe : [0x7E] ++ be16 (BitVec.ofNat 16 p.length) ++ escape p ++ be16 c ++ [0x7F] =
      [] ++ frameHead p c ++ [0x7F] := by
    simp [frameHead]
  have hlength : 6 + (escape p).length = ([] ++ frameHead p c ++ [0x7F]).length := by
    simp [frameHead, be16]; omega
  rw [hframe] at hrx
  rw [hlength]
  have hother : ErrKind.frameCrcMismatch ≠ .frameSyncTimeout := nofun
  have hrun := run_decStart_frame hidle hdec hw hcmd hdecode List.not_mem_nil hp hrx
  rw [rxEnd_received_of_mismatch hp hc, respondDecode_of_failed rfl hother] at hrun
  exact ⟨_, hrun, rfl, rfl, rfl, Nat.mod_eq_of_lt (by omega), rfl, rfl, rfl⟩

/-- Settles O39: the search is the decoder's way over bytes that are no start byte. -/
theorem searchGoesOn : Obligations.SearchGoesOn := by
  intro s g rest hs hw hg hrx
  have hrun := (reads_garbage hs hg).run hw rest 0
  rw [← hrx] at hrun
  exact hrun

end Sys2Proof.Machine
end

section
/-! SUPPORT. The bytes of the reference codec (spec/43_messages.md R231 to R234): what a varint is made of, what its reader
accepts, and from both the layout of the messages. -/

namespace Sys2Proof.Machine

/-! ## The groups of a varint -/

/-- The number that a list of seven-bit groups spells, least significant first (R232). -/
def groupsValue (g : List Byte) : Nat := g.foldr (fun b n => b.toNat % 128 + 128 * n) 0

@[simp] theorem groupsValue_nil : groupsValue [] = 0 := rfl

@[simp] theorem groupsValue_cons (b : Byte) (g : List Byte) :
    groupsValue (b :: g) = b.toNat % 128 + 128 * groupsValue g := rfl

theorem varintFuel_succ_of_lt {v : Nat} (k : Nat) (hv : v < 128) : varintFuel (k + 1) v = [BitVec.ofNat 8 v] := if_pos hv

theorem varintFuel_succ_of_ge {v : Nat} (k : Nat) (hv : 128 ≤ v) :
    varintFuel (k + 1) v = BitVec.ofNat 8 (128 + v % 128) :: varintFuel k (v / 128) := if_neg (Nat.not_lt.2 hv)

theorem varintFuel_ne_nil (k v : Nat) : varintFuel k v ≠ [] := by
  cases k with
  | zero => exact List.cons_ne_nil _ _
  | succ k => unfold varintFuel; split <;> exact List.cons_ne_nil _ _

theorem length_varintFuel_le (k v : Nat) : (varintFuel k v).length ≤ k + 1 := by
  induction k generalizing v with
  | zero => exact Nat.le_refl 1
  | succ k ih =>
    obtain hv | hv := Nat.lt_or_ge v 128
    · simp [varintFuel_succ_of_lt k hv]
    · simpa [varintFuel_succ_of_ge k hv] using ih (v / 128)

theorem length_varint_pos (v : Nat) : 1 ≤ (varint v).length := List.length_pos_of_ne_nil (varintFuel_ne_nil 4 v)

theorem length_varint_le (v : Nat) : (varint v).length ≤ 5 := length_varintFuel_le 4 v

theorem toNat_ofNat_of_small {v : Nat} (hv : v < 128) : (BitVec.ofNat 8 v).toNat = v :=
  Nat.mod_eq_of_lt (by omega)

/-- A byte of a varint that another one follows: bit 7 and seven bits of the value. -/
theorem toNat_continued (v : Nat) : (BitVec.ofNat 8 (128 + v % 128)).toNat = 128 + v % 128 :=
  Nat.mod_eq_of_lt (by omega)

theorem div_lt_of_lt_pow {k v : Nat} (hv : v < 128 ^ (k + 2)) : v / 128 < 128 ^ (k + 1) :=
  Nat.div_lt_of_lt_mul (by rwa [Nat.mul_comm, ← Nat.pow_succ])

theorem groupsValue_varintFuel {k v : Nat} (hv : v < 128 ^ (k + 1)) : groupsValue (varintFuel k v) = v := by
  induction k generalizing v with
  | zero => simp only [varintFuel, groupsValue_cons, groupsValue_nil, BitVec.toNat_ofNat]; omega
  | succ k ih =>
    obtain hsmall | hlarge := Nat.lt_or_ge v 128
    · rw [varintFuel_succ_of_lt k hsmall, groupsValue_cons, toNat_ofNat_of_small hsmall, groupsValue_nil]
      omega
    · rw [varintFuel_succ_of_ge k hlarge, groupsValue_cons, toNat_continued, ih (div_lt_of_lt_pow hv)]
      omega

theorem getLsbD_seven (b : Byte) : b.getLsbD 7 = decide (128 ≤ b.toNat) :=
  (BitVec.msb_eq_getLsbD_last b).symm.trans (BitVec.msb_eq_decide b)

theorem getLsbD_seven_of_small {v : Nat} (hv : v < 128) : (BitVec.ofNat 8 v).getLsbD 7 = false := by
  rw [getLsbD_seven, toNat_ofNat_of_small hv]
  exact decide_eq_false (Nat.not_le.2 hv)

/-- Bit 7 marks the bytes of a varint that another one follows (R232). -/
theorem getLsbD_varintFuel (k v i : Nat) (h : i < (varintFuel k v).length) :
    (varintFuel k v)[i].getLsbD 7 = decide (i + 1 < (varintFuel k v).length) := by
  induction k generalizing v i with
  | zero =>
    obtain rfl : i = 0 := Nat.lt_one_iff.1 h
    exact getLsbD_seven_of_small (Nat.mod_lt v (by decide))
  | succ k ih =>
    obtain hsmall | hlarge := Nat.lt_or_ge v 128
    · simp only [varintFuel_succ_of_lt k hsmall, List.length_singleton] at h ⊢
      obtain rfl : i = 0 := Nat.lt_one_iff.1 h
      exact getLsbD_seven_of_small hsmall
    · simp only [varintFuel_succ_of_ge k hlarge, List.length_cons] at h ⊢
      cases i with
      | zero =>
        have hrest := List.length_pos_of_ne_nil (varintFuel_ne_nil k (v / 128))
        simp only [List.getElem_cons_zero, getLsbD_seven, toNat_continued]
        exact decide_eq_decide.2 (by omega)
      | succ i =>
        rw [List.getElem_cons_succ, ih (v / 128) i (by omega)]
        exact decide_eq_decide.2 (by omega)

/-- No list of groups that spells the value is shorter than its varint (R232). -/
theorem length_varintFuel_groupsValue_le (k : Nat) {g : List Byte} (hg : g ≠ []) :
    (varintFuel k (groupsValue g)).length ≤ g.length := by
  induction k generalizing g with
  | zero => exact List.length_pos_of_ne_nil hg
  | succ k ih =>
    obtain hsmall | hlarge := Nat.lt_or_ge (groupsValue g) 128
    · rw [varintFuel_succ_of_lt k hsmall]
      exact List.length_pos_of_ne_nil hg
    · rw [varintFuel_succ_of_ge k hlarge]
      match g with
      | [b] =>
        simp only [groupsValue_cons, groupsValue_nil] at hlarge
        omega
      | b :: c :: g =>
        have hdiv : groupsValue (b :: c :: g) / 128 = groupsValue (c :: g) := by
          rw [groupsValue_cons b]; omega
        rw [hdiv]
        exact Nat.succ_le_succ (ih (List.cons_ne_nil c g))

/-! ## The layout of the messages -/

/-- Bits 2 to 0 of a tag are the wire type, the bits above them the field (R232). -/
theorem tag_eq_varint_or (f : Nat) {w : Nat} (hw : w < 8) : tag f w = varint ((f <<< 3) ||| w) := by
  rw [tag, ← Nat.shiftLeft_add_eq_or_of_lt (i := 3) hw f, Nat.shiftLeft_eq]

/-- A boolean field is the varint 0 or 1 (R232). -/
theorem varint_toNat (b : Bool) : varint b.toNat = [if b then 1 else 0] := by cases b <;> rfl

/-- The tags of R233 and R234 are one byte each. -/
theorem tag_of_lt {f w : Nat} (h : f * 8 + w < 128) : tag f w = [BitVec.ofNat 8 (f * 8 + w)] :=
  varintFuel_succ_of_lt 3 h

/-- Settles O60: the facts of a varint, and each message by the one-byte tags of its fields. -/
theorem referenceByteLayout : Obligations.ReferenceByteLayout := by
  refine ⟨fun v hv => ⟨groupsValue_varintFuel (by omega), length_varint_pos v, length_varint_le v,
      getLsbD_varintFuel 4 v, fun g hg hval => hval ▸ length_varintFuel_groupsValue_le 4 hg⟩,
    by decide, fun f w => tag_eq_varint_or f, fun _ _ => rfl, fun _ _ => rfl, ?_, ?_, ?_, ?_, ?_, by decide, by decide⟩
  · intro ver q c m
    simp [refMsgEnc, requestBodyBytes, fieldVarint, fieldBytes, tag_of_lt]
  · intro ver q n v
    simp [refMsgEnc, requestBodyBytes, fieldVarint, fieldBytes, tag_of_lt, varint_toNat]
  · intro ver q o crc d
    simp [refMsgEnc, requestBodyBytes, fieldVarint, fieldBytes, tag_of_lt]
  · intro ver q res sc fp bv
    simp [refRespEnc, responseBodyBytes, fieldVarint, fieldBytes, tag_of_lt]
  · intro ver q res ok msg
    simp [refRespEnc, responseBodyBytes, fieldVarint, fieldBytes, tag_of_lt, varint_toNat]

end Sys2Proof.Machine
end

section
/-! SUPPORT. The reference codec's readers (spec/43_messages.md R235): each accepts exactly what the writer of the same item
puts in front of a list, and so `MsgDec` is the strict partial inverse of `RespEnc`. -/

namespace Sys2Proof.Machine

/-! ## Varints -/

theorem readVarintFuel_cons_of_lt (k : Nat) {b : Byte} (hb : b.toNat < 128) (rest : List Byte) :
    readVarintFuel k (b :: rest) = some (b.toNat, rest) := by
  cases k <;> exact if_pos hb

theorem readVarintFuel_ofNat_of_small (k : Nat) {v : Nat} (hv : v < 128) (rest : List Byte) :
    readVarintFuel k (BitVec.ofNat 8 v :: rest) = some (v, rest) := by
  have hbyte := toNat_ofNat_of_small hv
  rw [readVarintFuel_cons_of_lt k (by rwa [hbyte]), hbyte]

theorem readVarintFuel_cons_of_ge {k v : Nat} {b : Byte} {a rest : List Byte} (hb : 128 ≤ b.toNat)
    (ha : readVarintFuel k a = some (v, rest)) (hv : v ≠ 0) :
    readVarintFuel (k + 1) (b :: a) = some (b.toNat % 128 + 128 * v, rest) := by
  simp [readVarintFuel, Nat.not_lt.2 hb, ha, hv]

theorem readVarintFuel_append {k v : Nat} (hv : v < 128 ^ (k + 1)) (rest : List Byte) :
    readVarintFuel k (varintFuel k v ++ rest) = some (v, rest) := by
  induction k generalizing v with
  | zero =>
    have hmod : v % 128 = v := Nat.mod_eq_of_lt hv
    rw [varintFuel, hmod]
    exact readVarintFuel_ofNat_of_small 0 hv rest
  | succ k ih =>
    obtain hsmall | hlarge := Nat.lt_or_ge v 128
    · rw [varintFuel_succ_of_lt k hsmall]
      exact readVarintFuel_ofNat_of_small (k + 1) hsmall rest
    · have hbyte := toNat_continued v
      have hvalue : (128 + v % 128) % 128 + 128 * (v / 128) = v := by omega
      rw [varintFuel_succ_of_ge k hlarge, List.cons_append,
        readVarintFuel_cons_of_ge (by omega) (ih (div_lt_of_lt_pow hv)) (by omega), hbyte, hvalue]

theorem varintFuel_of_readVarintFuel {k v : Nat} {a rest : List Byte} (h : readVarintFuel k a = some (v, rest)) :
    v < 128 ^ (k + 1) ∧ a = varintFuel k v ++ rest := by
  fun_induction readVarintFuel k a generalizing v rest with
  | case1 | case3 | case5 | case7 => cases h
  | case2 b a hb =>
    cases h
    exact ⟨hb, by simp [varintFuel, Nat.mod_eq_of_lt hb]⟩
  | case4 k b a hb =>
    cases h
    refine ⟨?_, by simp [varintFuel_succ_of_lt k hb]⟩
    calc b.toNat < 128 ^ 1 := hb
      _ ≤ 128 ^ (k + 2) := Nat.pow_le_pow_right (by decide) (by omega)
  | case6 k b a hb v' rest' hread hne ih =>
    cases h
    obtain ⟨hlt, rfl⟩ := ih hread
    have hbound := b.isLt
    have hdiv : (b.toNat % 128 + 128 * v') / 128 = v' := by omega
    have hbyte : 128 + (b.toNat % 128 + 128 * v') % 128 = b.toNat := by omega
    refine ⟨?_, ?_⟩
    · rw [Nat.pow_succ]; omega
    · rw [varintFuel_succ_of_ge k (by omega), hdiv, hbyte, BitVec.ofNat_toNat, BitVec.setWidth_eq, List.cons_append]

/-- The reader of a varint accepts the shortest spelling of a value below `2^32` and nothing else (R232). -/
theorem readVarint_eq_some_iff {a rest : List Byte} {v : Nat} :
    readVarint a = some (v, rest) ↔ v < 2 ^ 32 ∧ a = varint v ++ rest := by
  refine ⟨fun h => ?_, ?_⟩
  · unfold readVarint at h
    split at h
    next hread =>
      split at h
      next hlt =>
        cases h
        exact ⟨hlt, (varintFuel_of_readVarintFuel hread).2⟩
      next => cases h
    next => cases h
  · rintro ⟨hv, rfl⟩
    rw [readVarint, varint, readVarintFuel_append (by omega)]
    exact if_pos hv

/-- Within the five bytes that a varint can have, a list shows where it ends. -/
theorem varint_append_inj {v v' : Nat} (hv : v < 2 ^ 35) (hv' : v' < 2 ^ 35) {x y : List Byte}
    (h : varint v ++ x = varint v' ++ y) : v = v' ∧ x = y := by
  have hread := congrArg (readVarintFuel 4) h
  rw [varint, varint, readVarintFuel_append hv, readVarintFuel_append hv'] at hread
  simpa using hread

/-! ## Tags and fields -/

section
variable {f w : Nat} {a rest : List Byte}

theorem readTag_append {f' w' : Nat} (hf' : f' * 8 + w' < 2 ^ 32) :
    readTag f w (tag f' w' ++ rest) = if f' * 8 + w' = f * 8 + w then some rest else none := by
  have hread : readVarint (tag f' w' ++ rest) = some (f' * 8 + w', rest) := readVarint_eq_some_iff.2 ⟨hf', rfl⟩
  rw [readTag, hread]

theorem readTag_eq_some_iff (hf : f * 8 + w < 2 ^ 32) : readTag f w a = some rest ↔ a = tag f w ++ rest := by
  refine ⟨fun h => ?_, ?_⟩
  · unfold readTag at h
    split at h
    next hread =>
      split at h
      next heq =>
        cases h
        rw [(readVarint_eq_some_iff.1 hread).2, heq, tag]
      next => cases h
    next => cases h
  · rintro rfl
    rw [readTag_append hf, if_pos rfl]

theorem readFieldVarint_eq_some_iff {v : Nat} (hf : f < 8) :
    readFieldVarint f a = some (v, rest) ↔ v < 2 ^ 32 ∧ a = fieldVarint f v ++ rest := by
  simp only [readFieldVarint, Option.bind_eq_some_iff, readTag_eq_some_iff (show f * 8 + 0 < 2 ^ 32 by omega),
    readVarint_eq_some_iff, fieldVarint, List.append_assoc]
  refine ⟨?_, fun ⟨hv, ha⟩ => ⟨_, ha, hv, rfl⟩⟩
  rintro ⟨_, rfl, hv, rfl⟩
  exact ⟨hv, rfl⟩

theorem readFieldBytes_eq_some_iff {bs : List Byte} (hf : f < 8) :
    readFieldBytes f a = some (bs, rest) ↔ bs.length < 2 ^ 32 ∧ a = fieldBytes f bs ++ rest := by
  have hlength {n : Nat} {a' : List Byte} :
      (readTag f 2 a).bind readVarint = some (n, a') ↔ n < 2 ^ 32 ∧ a = tag f 2 ++ (varint n ++ a') := by
    simp only [Option.bind_eq_some_iff, readTag_eq_some_iff (show f * 8 + 2 < 2 ^ 32 by omega), readVarint_eq_some_iff]
    refine ⟨?_, fun ⟨hn, ha⟩ => ⟨_, ha, hn, rfl⟩⟩
    rintro ⟨_, rfl, hn, rfl⟩
    exact ⟨hn, rfl⟩
  refine ⟨fun h => ?_, ?_⟩
  · unfold readFieldBytes at h
    split at h
    next n a' hread =>
      split at h
      next hn =>
        cases h
        obtain ⟨hlt, rfl⟩ := hlength.1 hread
        rw [List.length_take_of_le hn]
        refine ⟨hlt, ?_⟩
        simp only [fieldBytes, List.length_take_of_le hn, List.append_assoc, List.take_append_drop]
      next => cases h
    next => cases h
  · rintro ⟨hlt, rfl⟩
    have hread := hlength.2 ⟨hlt, show fieldBytes f bs ++ rest = tag f 2 ++ (varint bs.length ++ (bs ++ rest)) by
      simp only [fieldBytes, List.append_assoc]⟩
    rw [readFieldBytes, hread]
    simp

theorem readFieldBytes_of_other {f' : Nat} (hf' : f' < 8) (hne : f' ≠ f) (bs : List Byte) :
    readFieldBytes f (fieldBytes f' bs ++ rest) = none := by
  rw [readFieldBytes, fieldBytes, List.append_assoc, List.append_assoc, readTag_append (by omega), if_neg (by omega)]
  rfl

theorem bool_toNat_lt (b : Bool) : b.toNat < 2 ^ 32 := Nat.lt_of_le_of_lt b.toNat_le (by decide)

theorem readFieldVarint_word (hf : f < 8) (v : Word) :
    readFieldVarint f (fieldVarint f v.toNat ++ rest) = some (v.toNat, rest) :=
  (readFieldVarint_eq_some_iff hf).2 ⟨v.isLt, rfl⟩

theorem readFieldVarint_bool (hf : f < 8) (v : Bool) :
    readFieldVarint f (fieldVarint f v.toNat ++ rest) = some (v.toNat, rest) :=
  (readFieldVarint_eq_some_iff hf).2 ⟨bool_toNat_lt v, rfl⟩

theorem readFieldBytes_append {bs : List Byte} (hf : f < 8) (hbs : bs.length < 2 ^ 32) :
    readFieldBytes f (fieldBytes f bs ++ rest) = some (bs, rest) :=
  (readFieldBytes_eq_some_iff hf).2 ⟨hbs, rfl⟩

end

theorem length_le_length_fieldBytes (f : Nat) (a : List Byte) : a.length ≤ (fieldBytes f a).length := by
  simp only [fieldBytes, List.length_append]
  omega

/-! ## The bodies of the responses -/

/-- The fields inside the body of a response (R234). -/
def responseFields : ResponseBody → List Byte
  | .handshakeResponse bv sc fp => fieldBytes 1 bv ++ (fieldVarint 2 sc.toNat ++ fieldVarint 3 fp.toNat)
  | .ack ok msg => fieldVarint 1 ok.toNat ++ fieldBytes 2 msg

theorem responseBodyBytes_handshakeResponse (bv : List Byte) (sc fp : Word) :
    responseBodyBytes (.handshakeResponse bv sc fp) = fieldBytes 4 (responseFields (.handshakeResponse bv sc fp)) := by
  rw [responseBodyBytes, responseFields, List.append_assoc]

theorem responseBodyBytes_ack (ok : Bool) (msg : List Byte) :
    responseBodyBytes (.ack ok msg) = fieldBytes 5 (responseFields (.ack ok msg)) := rfl

theorem readHandshakeResponse_responseFields {bv : List Byte} (hbv : bv.length < 2 ^ 32) (sc fp : Word) :
    readHandshakeResponse (responseFields (.handshakeResponse bv sc fp)) = some (.handshakeResponse bv sc fp) := by
  have hlast := readFieldVarint_word (f := 3) (rest := []) (by decide) fp
  rw [List.append_nil] at hlast
  rw [responseFields, readHandshakeResponse, readFieldBytes_append (by decide) hbv]
  simp [readFieldVarint_word, hlast]

theorem readAck_responseFields (ok : Bool) {msg : List Byte} (hmsg : msg.length < 2 ^ 32) :
    readAck (responseFields (.ack ok msg)) = some (.ack ok msg) := by
  have hlast := readFieldBytes_append (f := 2) (rest := []) (by decide) hmsg
  rw [List.append_nil] at hlast
  rw [responseFields, readAck, readFieldVarint_bool (by decide)]
  cases ok <;> simp [hlast]

theorem handshakeResponse_of_read {a : List Byte} {body : ResponseBody} (h : readHandshakeResponse a = some body) :
    fieldBytes 4 a = responseBodyBytes body := by
  revert h
  fun_cases readHandshakeResponse a with
  | case1 bv a1 hbv sc a2 hsc fp hfp =>
    rintro ⟨⟩
    obtain ⟨-, rfl⟩ := (readFieldBytes_eq_some_iff (by decide)).1 hbv
    obtain ⟨hsclt, rfl⟩ := (readFieldVarint_eq_some_iff (by decide)).1 hsc
    obtain ⟨hfplt, rfl⟩ := (readFieldVarint_eq_some_iff (by decide)).1 hfp
    rw [responseBodyBytes_handshakeResponse, responseFields, BitVec.toNat_ofNat, BitVec.toNat_ofNat,
      Nat.mod_eq_of_lt hsclt, Nat.mod_eq_of_lt hfplt, List.append_nil]
  | case2 | case3 | case4 => rintro ⟨⟩

theorem ack_of_read {a : List Byte} {body : ResponseBody} (h : readAck a = some body) :
    fieldBytes 5 a = responseBodyBytes body := by
  revert h
  fun_cases readAck a with
  | case1 ok a1 hok msg hmsg hlt =>
    rintro ⟨⟩
    obtain ⟨-, rfl⟩ := (readFieldVarint_eq_some_iff (by decide)).1 hok
    obtain ⟨-, rfl⟩ := (readFieldBytes_eq_some_iff (by decide)).1 hmsg
    have hbool : (ok == 1).toNat = ok := by
      obtain rfl | rfl : ok = 0 ∨ ok = 1 := by omega
      · rfl
      · rfl
    rw [responseBodyBytes_ack, responseFields, hbool, List.append_nil]
  | case2 | case3 | case4 => rintro ⟨⟩

/-- The reader of a body accepts exactly the two variants that `RBody` writes (R234). -/
theorem readResponseBody_eq_some_iff {a : List Byte} {body : ResponseBody} (ha : a.length < 2 ^ 32) :
    readResponseBody a = some body ↔ responseBodyBytes body = a := by
  refine ⟨fun h => ?_, ?_⟩
  · revert h
    fun_cases readResponseBody a with
    | case1 inner hread =>
      intro h
      rw [((readFieldBytes_eq_some_iff (by decide)).1 hread).2, List.append_nil, handshakeResponse_of_read h]
    | case3 hno inner hread =>
      intro h
      rw [((readFieldBytes_eq_some_iff (by decide)).1 hread).2, List.append_nil, ack_of_read h]
    | case2 | case4 => rintro ⟨⟩
  · rintro rfl
    cases body with
    | handshakeResponse bv sc fp =>
      rw [responseBodyBytes_handshakeResponse] at ha ⊢
      have hinner := Nat.lt_of_le_of_lt (length_le_length_fieldBytes _ _) ha
      have hbv : bv.length < 2 ^ 32 := by
        have := length_le_length_fieldBytes 1 bv
        rw [responseFields, List.length_append] at hinner
        omega
      have hread := readFieldBytes_append (f := 4) (rest := []) (by decide) hinner
      rw [List.append_nil] at hread
      simp [readResponseBody, hread, readHandshakeResponse_responseFields hbv]
    | ack ok msg =>
      rw [responseBodyBytes_ack] at ha ⊢
      have hinner := Nat.lt_of_le_of_lt (length_le_length_fieldBytes _ _) ha
      have hmsg : msg.length < 2 ^ 32 := by
        have := length_le_length_fieldBytes 2 msg
        rw [responseFields, List.length_append] at hinner
        omega
      have hother := readFieldBytes_of_other (f := 4) (f' := 5) (rest := []) (by decide) (by decide)
        (responseFields (.ack ok msg))
      have hread := readFieldBytes_append (f := 5) (rest := []) (by decide) hinner
      rw [List.append_nil] at hother hread
      simp [readResponseBody, hother, hread, readAck_responseFields ok hmsg]

/-! ## The responses -/

theorem refMsgDec_eq_some_iff {v : Word} {a : List Byte} {r : Response} (ha : a.length < 2 ^ 32) :
    refMsgDec v a = some r ↔ refRespEnc v r = a := by
  simp only [refRespEnc, List.append_assoc]
  refine ⟨fun h => ?_, ?_⟩
  · revert h
    fun_cases refMsgDec v a with
    | case1 seq a1 hseq a2 res a3 hres body hbody hver =>
      rintro ⟨⟩
      obtain ⟨hseqlt, rfl⟩ := (readFieldVarint_eq_some_iff (by decide)).1 hseq
      obtain ⟨-, rfl⟩ := (readFieldVarint_eq_some_iff (by decide)).1 hver
      obtain ⟨hreslt, rfl⟩ := (readFieldVarint_eq_some_iff (by decide)).1 hres
      simp only [List.length_append] at ha
      obtain rfl := (readResponseBody_eq_some_iff (by omega)).1 hbody
      simp only [BitVec.toNat_ofNat, Nat.mod_eq_of_lt hseqlt, Nat.mod_eq_of_lt hreslt]
    | case2 | case3 | case4 | case5 | case6 => rintro ⟨⟩
  · rintro rfl
    simp only [List.length_append] at ha
    have hbody := (readResponseBody_eq_some_iff (body := r.body) (by omega)).2 rfl
    simp [refMsgDec, readFieldVarint_word, hbody]

/-- The byte list of a response's body, of which R60 speaks, is in the bytes of the response. -/
theorem responseFits_of_length {v : Word} {r : Response} (h : (refRespEnc v r).length ≤ 1024) :
    responseFits r = true := by
  simp only [refRespEnc, List.length_append] at h
  unfold responseFits
  cases hbody : r.body with
  | handshakeResponse bv sc fp =>
    simp only [hbody, responseBodyBytes, fieldBytes, List.length_append] at h
    exact decide_eq_true (by omega)
  | ack ok msg =>
    simp only [hbody, responseBodyBytes, fieldBytes, List.length_append] at h
    exact decide_eq_true (by omega)

/-- Settles O40: reader by reader, and a field of a short payload is short. -/
theorem referenceDecoderIsStrictInverse : Obligations.ReferenceDecoderIsStrictInverse := by
  refine ⟨fun v a r => refMsgDec_eq_some_iff, fun p a r hp ha => ?_⟩
  have hdec : msgDec p a = (refMsgDec p.msgVersion a).filter responseFits := by rw [msgDec, hp]
  rw [hdec, Option.filter_eq_some_iff, refMsgDec_eq_some_iff (by omega)]
  refine and_iff_left_of_imp ?_
  rintro rfl
  exact responseFits_of_length ha

end Sys2Proof.Machine
end

section
/-! SUPPORT. The laws of R226 for the reference encoder (spec/43_messages.md R227, R231 to R233): the bytes of a request show
where each of its fields ends, every required field has bytes of its own, and a frame shows its payload. -/

namespace Sys2Proof.Machine

/-! ## Where a field ends -/

theorem tag_append_inj {f f' w : Nat} (hf : f < 8) (hf' : f' < 8) (hw : w < 8) {x y : List Byte}
    (h : tag f w ++ x = tag f' w ++ y) : f = f' ∧ x = y := by
  obtain ⟨htag, hrest⟩ := varint_append_inj (by omega) (by omega) h
  exact ⟨by omega, hrest⟩

theorem fieldVarint_append_inj {f v v' : Nat} (hv : v < 2 ^ 32) (hv' : v' < 2 ^ 32) {x y : List Byte}
    (h : fieldVarint f v ++ x = fieldVarint f v' ++ y) : v = v' ∧ x = y := by
  simp only [fieldVarint, List.append_assoc] at h
  exact varint_append_inj (by omega) (by omega) (List.append_cancel_left h)

theorem fieldVarint_word_append_inj {f : Nat} {v v' : Word} {x y : List Byte}
    (h : fieldVarint f v.toNat ++ x = fieldVarint f v'.toNat ++ y) : v = v' ∧ x = y := by
  obtain ⟨hv, hrest⟩ := fieldVarint_append_inj v.isLt v'.isLt h
  exact ⟨BitVec.eq_of_toNat_eq hv, hrest⟩

theorem fieldBytes_append_inj {f f' : Nat} (hf : f < 8) (hf' : f' < 8) {a a' x y : List Byte}
    (ha : a.length < 2 ^ 35) (ha' : a'.length < 2 ^ 35) (h : fieldBytes f a ++ x = fieldBytes f' a' ++ y) :
    f = f' ∧ a = a' ∧ x = y := by
  simp only [fieldBytes, List.append_assoc] at h
  obtain ⟨rfl, hrest⟩ := tag_append_inj hf hf' (by decide) h
  obtain ⟨hlen, hrest⟩ := varint_append_inj ha ha' hrest
  obtain ⟨rfl, rfl⟩ := List.append_inj hrest hlen
  exact ⟨rfl, rfl, rfl⟩

theorem length_fieldVarint_le {f : Nat} (hf : f < 8) (v : Nat) : (fieldVarint f v).length ≤ 6 := by
  have hv := length_varint_le v
  rw [fieldVarint, tag_of_lt (by omega), List.length_append, List.length_singleton]
  omega

theorem length_fieldBytes_le {f : Nat} (hf : f < 8) (a : List Byte) : (fieldBytes f a).length ≤ a.length + 6 := by
  have hlen := length_varint_le a.length
  simp only [fieldBytes, tag_of_lt (show f * 8 + 2 < 128 by omega), List.length_append, List.length_singleton]
  omega

/-! ## The parts of a request -/

/-- The number of the field that holds the body of a request (R233). -/
def requestBodyField : RequestBody → Nat
  | .handshake .. => 3
  | .prepare .. => 4
  | .dataPacket .. => 5

/-- The bytes of a required field of a request (R227, R233). -/
def fieldSpelling : RequestField → List Byte
  | .sequenceId q => fieldVarint 1 q.toNat
  | .capabilities c => fieldVarint 1 c.toNat
  | .maxPacketSize m => fieldVarint 2 m.toNat
  | .totalDataLength n => fieldVarint 1 n.toNat
  | .verifyAfterProgram v => fieldVarint 2 v.toNat
  | .offset o => fieldVarint 1 o.toNat
  | .data d => fieldBytes 2 d
  | .dataCrc32 crc => fieldVarint 3 crc.toNat

/-- The required fields of a request's body: all but the sequence id (R221, R222). -/
def requestBodyFields (b : RequestBody) : List RequestField := (requiredFields ⟨0, b⟩).tail

/-- The bytes inside the body of a request: its fields one after another (R233). -/
def requestInner (b : RequestBody) : List Byte := ((requestBodyFields b).map fieldSpelling).flatten

/-- The data of a data packet; no other request has any (R224). -/
def requestData : RequestBody → List Byte
  | .dataPacket _ d _ => d
  | _ => []

theorem requiredFields_eq (r : Request) : requiredFields r = .sequenceId r.sequenceId :: requestBodyFields r.body := by
  obtain ⟨q, b⟩ := r
  cases b <;> rfl

theorem requestBodyBytes_eq (b : RequestBody) : requestBodyBytes b = fieldBytes (requestBodyField b) (requestInner b) := by
  cases b <;> simp [requestBodyBytes, requestBodyField, requestInner, requestBodyFields, requiredFields, fieldSpelling]

theorem requestInner_handshake (c m : Word) :
    requestInner (.handshake c m) = fieldVarint 1 c.toNat ++ (fieldVarint 2 m.toNat ++ []) := rfl

theorem requestInner_prepare (n : Word) (v : Bool) :
    requestInner (.prepare n v) = fieldVarint 1 n.toNat ++ (fieldVarint 2 v.toNat ++ []) := rfl

theorem requestInner_dataPacket (o crc : Word) (d : List Byte) :
    requestInner (.dataPacket o d crc) = fieldVarint 1 o.toNat ++ (fieldBytes 2 d ++ (fieldVarint 3 crc.toNat ++ [])) := rfl

theorem requestBodyField_lt (b : RequestBody) : requestBodyField b < 8 := by
  cases b <;> simp [requestBodyField]

theorem length_requestInner_le (b : RequestBody) : (requestInner b).length ≤ (requestData b).length + 18 := by
  cases b with
  | handshake c m =>
    have h1 := length_fieldVarint_le (f := 1) (by decide) c.toNat
    have h2 := length_fieldVarint_le (f := 2) (by decide) m.toNat
    simp only [requestInner_handshake, List.length_append, List.length_nil]
    omega
  | prepare n v =>
    have h1 := length_fieldVarint_le (f := 1) (by decide) n.toNat
    have h2 := length_fieldVarint_le (f := 2) (by decide) v.toNat
    simp only [requestInner_prepare, List.length_append, List.length_nil]
    omega
  | dataPacket o d crc =>
    have h1 := length_fieldVarint_le (f := 1) (by decide) o.toNat
    have h2 := length_fieldBytes_le (f := 2) (by decide) d
    have h3 := length_fieldVarint_le (f := 3) (by decide) crc.toNat
    simp only [requestInner_dataPacket, requestData, List.length_append, List.length_nil]
    omega

theorem length_requestData_le (b : RequestBody) : (requestData b).length ≤ (requestInner b).length := by
  cases b with
  | handshake | prepare => exact Nat.zero_le _
  | dataPacket o d crc =>
    have hd := length_le_length_fieldBytes 2 d
    simp only [requestInner_dataPacket, requestData, List.length_append]
    omega

theorem requestTyped_data {p : Params} {r : Request} (h : requestTyped p r) :
    (requestData r.body).length ≤ p.dataMax := by
  obtain ⟨q, b⟩ := r
  cases b with
  | handshake | prepare => exact Nat.zero_le _
  | dataPacket o d crc => exact h

/-! ## The laws -/

/-- Law 4, for every request: the data is not all of its bytes. -/
theorem length_requestData_lt (v : Word) (r : Request) : (requestData r.body).length < (refMsgEnc v r).length := by
  have hdata := length_requestData_le r.body
  have hinner := length_le_length_fieldBytes (requestBodyField r.body) (requestInner r.body)
  have hseq := length_varint_pos r.sequenceId.toNat
  simp only [refMsgEnc, requestBodyBytes_eq, fieldVarint, List.length_append]
  omega

/-- A body can be read off its field: the number of the field tells the variant, the bytes inside tell its values. -/
theorem requestBody_eq_of_inner {b b' : RequestBody} (hb : (requestData b).length < 2 ^ 32)
    (hb' : (requestData b').length < 2 ^ 32) (hfield : requestBodyField b = requestBodyField b')
    (hinner : requestInner b = requestInner b') : b = b' := by
  cases b with
  | handshake c m =>
    cases b' with
    | handshake c' m' =>
      rw [requestInner_handshake, requestInner_handshake] at hinner
      obtain ⟨rfl, hrest⟩ := fieldVarint_word_append_inj hinner
      obtain ⟨rfl, -⟩ := fieldVarint_word_append_inj hrest
      rfl
    | prepare | dataPacket => cases hfield
  | prepare n v =>
    cases b' with
    | prepare n' v' =>
      rw [requestInner_prepare, requestInner_prepare] at hinner
      obtain ⟨rfl, hrest⟩ := fieldVarint_word_append_inj hinner
      obtain ⟨hv, -⟩ := fieldVarint_append_inj (bool_toNat_lt v) (bool_toNat_lt v') hrest
      rw [← Bool.ofNat_toNat v, hv, Bool.ofNat_toNat]
    | handshake | dataPacket => cases hfield
  | dataPacket o d crc =>
    cases b' with
    | dataPacket o' d' crc' =>
      simp only [requestData] at hb hb'
      rw [requestInner_dataPacket, requestInner_dataPacket] at hinner
      obtain ⟨rfl, hrest⟩ := fieldVarint_word_append_inj hinner
      obtain ⟨-, rfl, hlast⟩ := fieldBytes_append_inj (by decide) (by decide) (by omega) (by omega) hrest
      obtain ⟨rfl, -⟩ := fieldVarint_word_append_inj hlast
      rfl
    | handshake | prepare => cases hfield

/-- Law 2, also where the length of the body takes more than 32 bits: its varint has five bytes at most. -/
theorem refMsgEnc_injective {v : Word} {r r' : Request} (hr : (requestData r.body).length < 2 ^ 32)
    (hr' : (requestData r'.body).length < 2 ^ 32) (h : refMsgEnc v r = refMsgEnc v r') : r = r' := by
  have hlen := length_requestInner_le r.body
  have hlen' := length_requestInner_le r'.body
  simp only [refMsgEnc, List.append_assoc, requestBodyBytes_eq] at h
  obtain ⟨hseq, hrest⟩ := fieldVarint_word_append_inj h
  obtain ⟨hfield, hinner, -⟩ := fieldBytes_append_inj (requestBodyField_lt _) (requestBodyField_lt _) (by omega) (by omega)
    (congrArg (· ++ []) (List.append_cancel_left hrest))
  exact congrArg₂ Request.mk hseq (requestBody_eq_of_inner hr hr' hfield hinner)

theorem refMsgEnc_injective_of_length {v : Word} {r r' : Request} (hr : (refMsgEnc v r).length < 2 ^ 32)
    (h : refMsgEnc v r = refMsgEnc v r') : r = r' :=
  refMsgEnc_injective ((length_requestData_lt v r).trans hr) ((length_requestData_lt v r').trans (h ▸ hr)) h

theorem fieldSpelling_ne_nil (x : RequestField) : fieldSpelling x ≠ [] := by
  have htag (f w : Nat) : tag f w ≠ [] := varintFuel_ne_nil 4 _
  cases x <;> simp [fieldSpelling, fieldVarint, fieldBytes, htag]

/-- The bytes of a request cut up: the spellings of its fields, with the version and the head of the body after the sequence
id (R233). -/
def requestParts (v : Word) (r : Request) : List (List Byte) :=
  fieldSpelling (.sequenceId r.sequenceId) :: fieldVarint 2 v.toNat ::
    (tag (requestBodyField r.body) 2 ++ varint (requestInner r.body).length) ::
    (requestBodyFields r.body).map fieldSpelling

theorem flatten_requestParts (v : Word) (r : Request) : (requestParts v r).flatten = refMsgEnc v r := by
  simp only [requestParts, List.flatten_cons, refMsgEnc, requestBodyBytes_eq, fieldBytes, fieldSpelling, List.append_assoc]
  rfl

theorem requiredFields_subperm_requestParts (v : Word) (r : Request) :
    ((requiredFields r).map fieldSpelling).Subperm (requestParts v r) := by
  rw [requiredFields_eq, List.map_cons]
  exact (((List.sublist_cons_self _ _).trans (List.sublist_cons_self _ _)).cons_cons _).subperm

theorem msgEnc_of_reference {p : Params} (hp : p.codec = .reference) (r : Request) :
    msgEnc p r = refMsgEnc p.msgVersion r := by
  rw [msgEnc, hp]

theorem msgCodecLaws_of_reference {p : Params} (hp : p.codec = .reference) (hwf : p.wf) : MsgCodecLaws p where
  injective r r' hr hr' h := by
    obtain ⟨hmax, -, -⟩ := hwf
    have hd := requestTyped_data hr
    have hd' := requestTyped_data hr'
    rw [msgEnc_of_reference hp, msgEnc_of_reference hp] at h
    exact refMsgEnc_injective (by omega) (by omega) h
  fieldsPresent := ⟨fieldSpelling, fieldSpelling_ne_nil, fun r _ => ⟨requestParts p.msgVersion r,
    (flatten_requestParts p.msgVersion r).trans (msgEnc_of_reference hp r).symm,
    requiredFields_subperm_requestParts p.msgVersion r⟩⟩
  longerThanData q o crc d _ := by
    rw [msgEnc_of_reference hp]
    exact length_requestData_lt p.msgVersion ⟨q, .dataPacket o d crc⟩

/-! ## One frame, one request -/

theorem length_le_of_frameEncode {p f : List Byte} (h : frameEncode p = some f) : p.length ≤ 1024 := by
  by_contra hlong
  rw [frameEncode_of_too_long (Nat.lt_of_not_le hlong)] at h
  cases h

/-- A frame shows its payload: three bytes before and three bytes after the escaped bytes (R92, R161). -/
theorem frameBytes_inj {p p' : List Byte} (hp : p.length ≤ 1024) (hp' : p'.length ≤ 1024)
    (h : frameBytes p = frameBytes p') : p = p' := by
  rw [frameBytes_eq p hp, frameBytes_eq p' hp'] at h
  exact escape_injective (List.append_inj_left' (List.append_inj_right h rfl) rfl)

theorem frameEncode_inj {p p' f : List Byte} (h : frameEncode p = some f) (h' : frameEncode p' = some f) : p = p' := by
  have hp := length_le_of_frameEncode h
  have hp' := length_le_of_frameEncode h'
  rw [frameEncode_of_le hp] at h
  rw [frameEncode_of_le hp'] at h'
  exact frameBytes_inj hp hp' (Option.some.inj (h.trans h'.symm))

/-- Settles O41: the encoder's laws, and a frame shows its payload, of which the codec in use makes one request. -/
theorem referenceEncoderLaws : Obligations.ReferenceEncoderLaws := by
  refine ⟨fun v r r' => refMsgEnc_injective_of_length,
    fun v o crc q d => length_requestData_lt v ⟨q, .dataPacket o d crc⟩, fun p r hp => msgEnc_of_reference hp r,
    fun p => msgCodecLaws_of_reference, ?_⟩
  intro p r r' f hopen hr hr' hf hf'
  have henc := frameEncode_inj hf hf'
  have hlen := length_le_of_frameEncode hf
  cases hcodec : p.codec with
  | reference =>
    rw [msgEnc_of_reference hcodec] at henc hlen
    rw [msgEnc_of_reference hcodec] at henc
    exact refMsgEnc_injective_of_length (by omega) henc
  | device => exact (hopen hcodec).injective r r' hr hr' henc

end Sys2Proof.Machine
end

section
/-! SUPPORT. The commands of the Protocol Client that make no exchange (spec/44_protocol_client.md R254 to R258): the staging
of data, and the client's lifetime. -/

namespace Sys2Proof.Machine

/-! ## DBUF -/

section
variable {s : State}

theorem pushDbuf_of_lt (h : s.dbufLen.toNat < s.params.dataMax) (b : Byte) :
    pushDbuf b s = { writeBuffer .dbuf s.dbufLen.toNat [b] s with dbufLen := s.dbufLen + 1 } := if_pos h

theorem pushDbuf_of_ge (h : s.params.dataMax ≤ s.dbufLen.toNat) (b : Byte) :
    pushDbuf b s = { s with dbufLen := BitVec.ofNat 32 (s.params.dataMax + 1) } := if_neg (Nat.not_lt.2 h)

theorem exec_dbufPush_of_idle (h : s.progress = .idle) (b : Byte) :
    exec (.dbufPush b) s = .next (respond .none (pushDbuf b s).dbufLen (pushDbuf b s)) :=
  next_accept_of_idle h _

end

theorem dbufOvf_of_lt {s : State} (h : s.params.dataMax < s.dbufLen.toNat) : dbufOvf s = true :=
  decide_eq_true h

/-- Settles O42: a push is one of `pushDbuf`'s two cases, and below the boundary it is a write of one byte. -/
theorem dbufCommands : Obligations.DbufCommands := by
  refine ⟨fun arg => ⟨decodeCmd_cmdWord _ _, decodeCmd_cmdWord _ _⟩, fun s hidle => next_accept_of_idle hidle _,
    fun s b hidle hlt => ?_, fun s b hidle hge => ?_, fun s => ⟨rfl, fun hwf => ?_⟩⟩
  · refine ⟨(writeBuffer .dbuf s.dbufLen.toNat [b] s).mem, ?_, readAt_writeBuffer_single .dbuf _ b s⟩
    rw [exec_dbufPush_of_idle hidle, pushDbuf_of_lt hlt]
    rfl
  · rw [exec_dbufPush_of_idle hidle, pushDbuf_of_ge hge]
  · obtain ⟨hmax, -, -⟩ := hwf
    have hlen : (BitVec.ofNat 32 (s.params.dataMax + 1)).toNat = s.params.dataMax + 1 := Nat.mod_eq_of_lt hmax
    exact dbufOvf_of_lt (by simp only [hlen, Nat.lt_succ_self])

/-! ## The lifetime of a client -/

section
variable {s : State}

theorem exec_clOpen_of_opened (hidle : s.progress = .idle) (hs : s.cl.state = .disconnected)
    (hlink : nextOpenAnswer s.link = .opened) :
    exec .clOpen s = .next (respond .none 0 { linkOpen s with cl := openedClient }) :=
  (next_accept_of_idle hidle _).trans (by simp only [hs, hlink, ne_eq, not_true_eq_false, if_false])

theorem exec_clOpen_of_transportError (hidle : s.progress = .idle) (hs : s.cl.state = .disconnected)
    (hlink : nextOpenAnswer s.link = .transportError) :
    exec .clOpen s = .next (respond .transportError 0 (linkOpen s)) :=
  (next_accept_of_idle hidle _).trans (by simp only [hs, hlink, ne_eq, not_true_eq_false, if_false])

theorem exec_clOpen_refused (hidle : s.progress = .idle) (hs : s.cl.state ≠ .disconnected) :
    exec .clOpen s = .next (refuse s) :=
  (next_accept_of_idle hidle _).trans (congrArg _ (if_pos hs))

theorem exec_clClose_of_disconnected (hidle : s.progress = .idle) (hs : s.cl.state = .disconnected) :
    exec .clClose s = .next (respond .none 0 s) :=
  (next_accept_of_idle hidle _).trans (congrArg _ (if_pos hs))

theorem exec_clClose_of_closed (hidle : s.progress = .idle) (hs : s.cl.state ≠ .disconnected)
    (hlink : nextCloseAnswer s.link = .closed) :
    exec .clClose s =
      .next (respond .none 0 (linkClose { s with cl := { s.cl with state := .disconnected } })) :=
  (next_accept_of_idle hidle _).trans (by simp only [if_neg hs, hlink])

end

/-- Settles O43: the state the client is in, then the link's answer where it is called. -/
theorem clientOpenAndClose : Obligations.ClientOpenAndClose :=
  ⟨fun _ => ⟨decodeCmd_cmdWord _ _, decodeCmd_cmdWord _ _⟩,
    fun _ hidle hs hlink => exec_clOpen_of_opened hidle hs hlink,
    fun _ hidle hs hlink => exec_clOpen_of_transportError hidle hs hlink,
    fun _ hidle hs => exec_clOpen_refused hidle hs,
    fun _ hidle hs hlink => exec_clClose_of_closed hidle hs hlink,
    fun _ hidle hs => exec_clClose_of_disconnected hidle hs⟩

end Sys2Proof.Machine
end

section
/-! SUPPORT. The write half of an exchange (spec/44_protocol_client.md R252, R262 to R267): how a phase starts for each
message it has, what its request does for each answer of the link, and from them the statements on requests. -/

namespace Sys2Proof.Machine

/-! ## The start of a phase -/

section
variable {s : State} {p : Phase} {b : Bool} {n : Word}

theorem startPhase_of_too_long (hm : 1024 < (phaseMessage p n s).length) :
    startPhase p b n s = phaseFailed p b .framePayloadTooLong s := by
  unfold startPhase
  split
  · rfl
  · exact if_pos hm

theorem startPhase_of_dbufOvf (hovf : dbufOvf s = true) :
    startPhase .transfer b n s = phaseFailed .transfer b .framePayloadTooLong s := if_pos ⟨rfl, hovf⟩

theorem startPhase_of_fits (hovf : p = .transfer → dbufOvf s = false) (hm : (phaseMessage p n s).length ≤ 1024) :
    startPhase p b n s = sendRequest p b (phaseMessage p n s) (loadRequest p (phaseMessage p n s) s) := by
  have hdata : ¬ (p = .transfer ∧ dbufOvf s = true) := fun ⟨hp, h⟩ => by simp [hovf hp] at h
  rw [startPhase, if_neg hdata]
  exact if_neg (Nat.not_lt.2 hm)

/-- Law 4 of R226, which the reference codec has under any parameters. -/
theorem length_lt_length_dataPacket {q : Params} (hopen : OpenCodecHasLaws q) {d : List Byte} (hd : d.length ≤ q.dataMax)
    (i o crc : Word) : d.length < (msgEnc q { sequenceId := i, body := .dataPacket o d crc }).length := by
  cases hcodec : q.codec with
  | reference =>
    rw [msgEnc_of_reference hcodec]
    exact length_requestData_lt q.msgVersion { sequenceId := i, body := .dataPacket o d crc }
  | device => exact (hopen hcodec).longerThanData i o crc d hd

/-- Data of 1024 bytes or more is never sent: it overflows DBUF, or its message is longer than a payload (R226, R265). -/
theorem startPhase_transfer_of_long_data (hopen : OpenCodecHasLaws s.params) (hlen : 1024 ≤ s.dbufLen.toNat) :
    startPhase .transfer b n s = phaseFailed .transfer b .framePayloadTooLong s := by
  by_cases hovf : s.params.dataMax < s.dbufLen.toNat
  · exact startPhase_of_dbufOvf (dbufOvf_of_lt hovf)
  · have hmessage := length_lt_length_dataPacket (d := stagedData s) hopen
      (by rw [stagedData, bufferBytes_length]; omega) Phase.transfer.seqId 0 (crc32Bootloader (stagedData s))
    rw [stagedData, bufferBytes_length] at hmessage
    exact startPhase_of_too_long (hlen.trans_lt hmessage)

end

/-! ## The phase commands -/

section
variable {s : State}

theorem phaseCommand_of_needed {p : Phase} (h : s.cl.state = p.needs) (n : Word) :
    phaseCommand p n s = startPhase p false n s := if_pos h

theorem exec_clTransfer_of_prepared (hidle : s.progress = .idle) (hs : s.cl.state = .prepared) :
    exec .clTransfer s = .next (startPhase .transfer false 0 s) :=
  (next_accept_of_idle hidle _).trans (congrArg _ (phaseCommand_of_needed (p := .transfer) hs 0))

theorem exec_clRunSession_of_dbufOvf (hidle : s.progress = .idle) (hs : s.cl.state = .connected)
    (hovf : dbufOvf s = true) : exec .clRunSession s = .next (phaseFailed .transfer true .framePayloadTooLong s) :=
  (next_accept_of_idle hidle _).trans
    (congrArg _ ((if_neg (not_not.2 hs)).trans (if_pos hovf)))

theorem exec_clRunSession_of_staged (hidle : s.progress = .idle) (hs : s.cl.state = .connected)
    (hovf : dbufOvf s = false) : exec .clRunSession s = .next (startPhase .handshake true 0 s) :=
  (next_accept_of_idle hidle _).trans
    (congrArg _ ((if_neg (not_not.2 hs)).trans (if_neg (by simp [hovf]))))

/-- A command that has a first phase starts it, with the message of the request that `phaseRequest` names. -/
theorem exec_of_phaseRequest {i : Instr} {p : Phase} {b : Bool} {r : Request} (hidle : s.progress = .idle)
    (h : phaseRequest s i = some (p, b, r)) :
    ∃ n, exec i s = .next (startPhase p b n s) ∧ phaseMessage p n s = msgEnc s.params r ∧
      (p = .transfer → dbufOvf s = false) := by
  have starts (q : Phase) (hs : s.cl.state = q.needs) (n : Word) :
      Host.Outcome.next (accept s (phaseCommand q n)) =
        (.next (startPhase q false n s) : Host.Outcome State Fault Refusal) :=
    (next_accept_of_idle hidle _).trans (congrArg _ (phaseCommand_of_needed hs n))
  cases i with
  | clHandshake =>
    obtain ⟨hs, ⟨⟩⟩ := Option.ite_none_right_eq_some.1 h
    exact ⟨0, starts .handshake hs 0, rfl, nofun⟩
  | clPrepare x =>
    obtain ⟨hs, ⟨⟩⟩ := Option.ite_none_right_eq_some.1 h
    exact ⟨x, starts .prepare hs x, rfl, nofun⟩
  | clTransfer =>
    obtain ⟨⟨hs, hdata⟩, ⟨⟩⟩ := Option.ite_none_right_eq_some.1 h
    exact ⟨0, starts .transfer hs 0, rfl, fun _ => (dbufOvf_eq_false_iff s).2 hdata⟩
  | clVerify =>
    obtain ⟨hs, ⟨⟩⟩ := Option.ite_none_right_eq_some.1 h
    exact ⟨0, starts .verify hs 0, rfl, nofun⟩
  | clRunSession =>
    obtain ⟨⟨hs, hdata⟩, ⟨⟩⟩ := Option.ite_none_right_eq_some.1 h
    exact ⟨0, exec_clRunSession_of_staged hidle hs ((dbufOvf_eq_false_iff s).2 hdata), rfl, nofun⟩
  | _ => cases h

end

/-- Settles O45: what is too long fails in `startPhase`, whichever command or session starts the phase. -/
theorem overlongDataIsNotSent : Obligations.OverlongDataIsNotSent := by
  refine ⟨fun s hidle hs hlen => ?_, fun s hidle hs hlen => ?_, fun i s p b r hidle hrequest hlong => ?_,
    fun s u p r hstarts hlong => ?_, fun s k res msg hp hd hm hlen => ?_, fun s hopen hidle hs hlen => ?_,
    fun s u r hopen hstarts hlen => ?_⟩
  · rw [exec_clTransfer_of_prepared hidle hs, startPhase_of_dbufOvf (dbufOvf_of_lt hlen)]; rfl
  · rw [exec_clRunSession_of_dbufOvf hidle hs (dbufOvf_of_lt hlen)]; rfl
  · obtain ⟨n, hexec, hmessage, -⟩ := exec_of_phaseRequest hidle hrequest
    rw [hexec, startPhase_of_too_long (hmessage ▸ hlong)]; rfl
  · obtain ⟨n, hnext, hmessage, -⟩ := sessionStarts_afterEvent hstarts
    rw [hnext, startPhase_of_too_long (hmessage ▸ hlong)]; rfl
  · have hnext : afterEvent s = startPhase .transfer true 0 (acknowledged .prepared res msg s) :=
      afterEvent_of_ack (p := .prepare) hp hd nofun hm
    rw [hnext, startPhase_of_dbufOvf (dbufOvf_of_lt (s := acknowledged .prepared res msg s) hlen)]; rfl
  · rw [exec_clTransfer_of_prepared hidle hs, startPhase_transfer_of_long_data hopen hlen]; rfl
  · obtain ⟨n, hnext, -, -, -, -, hparams, -, hdbuf⟩ := sessionStarts_afterEvent hstarts
    rw [hnext, startPhase_transfer_of_long_data (hparams ▸ hopen) (hdbuf ▸ hlen)]; rfl

/-! ## The request and the link -/

/-- A record in the log is a change of the client's registers (R40). -/
theorem logAppend_eq (r : LogRecord) (s : State) :
    logAppend r s = { s with cl := loggedClient s.cl s.params.logMax r } := by
  unfold logAppend loggedClient
  split <;> rfl

section
variable {s : State} {p : Phase} {b : Bool} {m : List Byte} {k : Nat}

theorem sendRequest_of_whole (h : nextWriteAnswer s.link = .accepted k) (hk : (frameBytes m).length ≤ k) :
    sendRequest p b m s =
      awaitResponse p b 1 (logAppend (requestRecord p (frameBytes m).length m.length (frameBytes m).length)
        (txFlush (txWrite (frameBytes m) s))) := by
  simp only [sendRequest, h, if_neg (Nat.not_lt.2 hk), Nat.min_eq_right hk]

theorem sendRequest_of_short (h : nextWriteAnswer s.link = .accepted k) (hk : k < (frameBytes m).length) :
    sendRequest p b m s =
      phaseFailed p b .transportError (logAppend (requestRecord p (frameBytes m).length m.length k)
        (txFlush (txWrite (frameBytes m) s))) := by
  simp only [sendRequest, h, if_pos hk, Nat.min_eq_left hk.le]

theorem sendRequest_of_transportError (h : nextWriteAnswer s.link = .transportError) :
    sendRequest p b m s =
      phaseFailed p b .transportError (logAppend (requestRecord p (frameBytes m).length m.length 0)
        (txWrite (frameBytes m) s)) := by
  simp only [sendRequest, h]

/-- A record says success only of a frame that was taken whole (R40). -/
theorem requestRecord_of_whole (p : Phase) (f m : Nat) : requestRecord p f m f =
    { frameType := BitVec.ofNat 3 p.number, totalLen := BitVec.ofNat 12 f, payloadLen := BitVec.ofNat 11 m
      bytesWritten := BitVec.ofNat 12 f, success := true } := by
  simp [requestRecord]

theorem requestRecord_of_short (p : Phase) {f n : Nat} (m : Nat) (hn : n < f) : requestRecord p f m n =
    { frameType := BitVec.ofNat 3 p.number, totalLen := BitVec.ofNat 12 f, payloadLen := BitVec.ofNat 11 m
      bytesWritten := BitVec.ofNat 12 n, success := false } := by
  simp [requestRecord, hn.ne]

/-- A message written in TXBUF is read back there, and no other byte has changed. -/
theorem readAt_writeList_txbuf (mem : Memory) (m : List Byte) :
    (∀ i (h : i < m.length), (mem.writeList (Memory.addr .txbuf 0) m).readAt (Memory.addr .txbuf i) = some m[i]) ∧
      ∀ a, (a < Memory.addr .txbuf 0 ∨ Memory.addr .txbuf m.length ≤ a) →
        (mem.writeList (Memory.addr .txbuf 0) m).readAt a = mem.readAt a :=
  ⟨fun i h => Memory.readAt_writeList_inside m mem (Memory.addr .txbuf 0) i h,
    fun a ha => Memory.readAt_writeList_outside m mem (Memory.addr .txbuf 0) a ha⟩

/-- TXBUF written and RXBUF forgotten (R262). -/
theorem messageStored_of_mem {t : State} (h : t.mem = (s.mem.writeList (Memory.addr .txbuf 0) m).forget .rxbuf) :
    MessageStored m s t := by
  obtain ⟨hinside, houtside⟩ := readAt_writeList_txbuf s.mem m
  obtain ⟨hnone, hkept⟩ := Memory.readAt_forget_rxbuf (s.mem.writeList (Memory.addr .txbuf 0) m)
  rw [MessageStored, h]
  refine ⟨fun i hi => ?_, hnone, fun a ha hout => (hkept a ha).trans (houtside a hout)⟩
  rw [hkept _ (by simp only [Memory.addr, Space.id]; omega)]
  exact hinside i hi

/-- The request of a phase whose message fits, the link taking the whole frame (R262). -/
theorem requestSent_sendRequest (h : nextWriteAnswer s.link = .accepted k) (hk : (frameBytes m).length ≤ k) :
    RequestSent p b m s (sendRequest p b m (loadRequest p m s)) := by
  rw [sendRequest_of_whole (s := loadRequest p m s) h hk, txFlush_txWrite_of_accepted (s := loadRequest p m s) h,
    List.take_of_length_le hk, logAppend_eq, requestRecord_of_whole]
  exact ⟨rfl, rfl, rfl, rfl, rfl, rfl, rfl, messageStored_of_mem rfl, rfl, rfl, rfl⟩

/-- The request of a phase whose write fails or is short (R262, R363). -/
theorem writeFailed_sendRequest (hk : k < (frameBytes m).length)
    (h : nextWriteAnswer s.link = .accepted k ∨ (nextWriteAnswer s.link = .transportError ∧ k = 0)) :
    WriteFailed p b m (frameBytes m) k s (sendRequest p b m (loadRequest p m s)) := by
  refine ⟨s.mem.writeList (Memory.addr .txbuf 0) m, ?_, readAt_writeList_txbuf s.mem m⟩
  obtain h | ⟨h, rfl⟩ := h
  · have hok : nextWriteAnswer s.link ≠ .transportError := by rw [h]; nofun
    rw [if_neg hok, sendRequest_of_short (s := loadRequest p m s) h hk,
      txFlush_txWrite_of_accepted (s := loadRequest p m s) h, logAppend_eq, requestRecord_of_short p _ hk]
    rfl
  · rw [if_pos h, sendRequest_of_transportError (s := loadRequest p m s) h,
      txWrite_of_transportError (s := loadRequest p m s) h, logAppend_eq, requestRecord_of_short p _ hk,
      List.take_zero, List.append_nil]
    rfl

end

theorem frameBytes_of_frameEncode {m f : List Byte} (h : frameEncode m = some f) : frameBytes m = f :=
  Option.some.inj ((frameEncode_of_le (length_le_of_frameEncode h)).symm.trans h)

/-- Settles O46: a phase that can be sent is a `sendRequest`, and that ends by the link's answer. -/
theorem failedWriteEndsThePhase : Obligations.FailedWriteEndsThePhase := by
  refine ⟨fun i s p b r f n hidle hrequest hf hn hlink => ?_, fun s u p r f n hstarts hf hn hlink => ?_⟩
  · have hm := length_le_of_frameEncode hf
    obtain rfl := frameBytes_of_frameEncode hf
    obtain ⟨x, hexec, hmessage, hovf⟩ := exec_of_phaseRequest hidle hrequest
    refine ⟨_, hexec, ?_⟩
    rw [startPhase_of_fits hovf (hmessage ▸ hm), hmessage]
    exact writeFailed_sendRequest hn hlink
  · have hm := length_le_of_frameEncode hf
    obtain rfl := frameBytes_of_frameEncode hf
    obtain ⟨x, hnext, hmessage, hovf, hulink, -⟩ := sessionStarts_afterEvent hstarts
    rw [hnext, startPhase_of_fits hovf (hmessage ▸ hm), hmessage]
    exact writeFailed_sendRequest hn (hulink ▸ hlink)

/-- A command whose first phase has a message that fits sends it when the link takes the whole frame. -/
theorem exec_sends_request {s : State} {i : Instr} {p : Phase} {b : Bool} {r : Request} {n : Nat}
    (hidle : s.progress = .idle) (hlink : nextWriteAnswer s.link = .accepted n)
    (hrequest : phaseRequest s i = some (p, b, r)) (hm : (msgEnc s.params r).length ≤ 1024)
    (hn : (frameBytes (msgEnc s.params r)).length ≤ n) :
    ∃ t, exec i s = .next t ∧ RequestSent p b (msgEnc s.params r) s t := by
  obtain ⟨x, hexec, hmessage, hovf⟩ := exec_of_phaseRequest hidle hrequest
  refine ⟨_, hexec, ?_⟩
  rw [startPhase_of_fits hovf (hmessage ▸ hm), hmessage]
  exact requestSent_sendRequest hlink hn

/-- Settles O44: in the state it needs each command has its `phaseRequest`. -/
theorem phaseCommandsSendTheirRequest : Obligations.PhaseCommandsSendTheirRequest := by
  intro s n x hidle hlink
  refine ⟨fun hs hm hn => ?_, fun hs hm hn => ?_, fun hs hdata hm hn => ?_, fun hs hm hn => ?_,
    fun hs hdata hm hn => ?_⟩
  · exact exec_sends_request hidle hlink (if_pos hs) hm hn
  · exact exec_sends_request hidle hlink (if_pos hs) hm hn
  · exact exec_sends_request hidle hlink (if_pos ⟨hs, hdata⟩) hm hn
  · exact exec_sends_request hidle hlink (if_pos hs) hm hn
  · exact exec_sends_request hidle hlink (if_pos ⟨hs, hdata⟩) hm hn

end Sys2Proof.Machine
end

section
/-! SUPPORT. The read half of an exchange (spec/44_protocol_client.md R253, R259 to R267): what a failed decoder, a response
that fails its phase and a good response make of it, and from them the statements on responses. -/

namespace Sys2Proof.Machine

/-! ## A failed decoder -/

section
variable {s : State} {p : Phase} {b : Bool} {k : Nat}

theorem afterEvent_of_failed (hp : s.progress = .exchange p b k) (hd : s.dec.state = .failed) :
    afterEvent s = finishExchange p b k s := by
  simp [afterEvent, hp, reading_of_failed hd]

theorem endsExchange_iff (e : ErrKind) : endsExchange e = true ↔ e = .transportError ∨ e = .interrupted := by
  simp [endsExchange]

/-- The errors after which no attempt is made, or no attempt left (R261). -/
theorem finishExchange_of_ended (hd : s.dec.state = .failed)
    (h : k = s.params.rxAttempts ∨ endsExchange s.dec.err = true) :
    finishExchange p b k s = phaseFailed p b s.dec.err s :=
  (if_neg (by rw [hd]; nofun)).trans (if_pos h)

theorem finishExchange_of_retry (hd : s.dec.state = .failed)
    (h : ¬ (k = s.params.rxAttempts ∨ endsExchange s.dec.err = true)) :
    finishExchange p b k s = awaitResponse p b (k + 1) s :=
  (if_neg (by rw [hd]; nofun)).trans (if_neg h)

end

/-- Settles O47: another attempt restarts the decoder, and touches nothing else but RXBUF. -/
theorem retryPolicy : Obligations.RetryPolicy := by
  refine fun s p b k hp hd => ⟨fun hended => ?_, fun htransport hinterrupted hlast => ?_⟩
  · rw [afterEvent_of_failed hp hd, finishExchange_of_ended hd (by rw [endsExchange_iff]; tauto)]
    rfl
  · rw [afterEvent_of_failed hp hd, finishExchange_of_retry hd (by rw [endsExchange_iff]; tauto)]
    exact ⟨s.mem.forget .rxbuf, rfl, Memory.readAt_forget_rxbuf s.mem⟩

/-! ## A complete frame -/

section
variable {s : State} {p : Phase} {b : Bool} {r : Response}

theorem judgeResponse_of_no_message (hm : msgDec s.params (rxPayload s) = none) :
    judgeResponse p b s = phaseFailed p b .messageDecodeError s := by
  simp only [judgeResponse, hm]

/-- The sequence id is tested before the body (R262). -/
theorem judgeResponse_of_wrong_id (hm : msgDec s.params (rxPayload s) = some r) (hid : r.sequenceId ≠ p.seqId) :
    judgeResponse p b s = phaseFailed p b .protocolSequenceError (recordResponse r s) := by
  simp only [judgeResponse, hm, if_pos hid]

theorem judgeResponse_of_failing_body (hm : msgDec s.params (rxPayload s) = some r) (hid : r.sequenceId = p.seqId)
    (hbody : judge p r.body ≠ .none) : judgeResponse p b s = phaseFailed p b (judge p r.body) (recordResponse r s) := by
  simp only [judgeResponse, hm, if_neg (not_not.2 hid), if_pos hbody]

theorem judgeResponse_of_good (hm : msgDec s.params (rxPayload s) = some r) (hid : r.sequenceId = p.seqId)
    (hbody : judge p r.body = .none) :
    judgeResponse p b s = continueSession p b (recordSuccess p r.body (recordResponse r s)) := by
  simp only [judgeResponse, hm, if_neg (not_not.2 hid), if_neg (not_not.2 hbody)]

end

/-- Every phase fails on a negative `Ack` (R259). -/
theorem judge_of_negative_ack (p : Phase) (msg : List Byte) : judge p (.ack false msg) = .phaseFailure := by
  cases p <;> rfl

/-- Only the handshake expects a `HandshakeResponse` (R259). -/
theorem judge_of_handshakeResponse {p : Phase} (hp : p ≠ .handshake) (bv : List Byte) (sc fp : Word) :
    judge p (.handshakeResponse bv sc fp) = .protocolSequenceError := by
  cases p with
  | handshake => exact absurd rfl hp
  | prepare | transfer | verify => rfl

/-- Settles O48: no message, then the sequence id, then the body. -/
theorem responseFailsThePhase : Obligations.ResponseFailsThePhase := by
  intro s p b k hp hd
  dsimp only
  rw [afterEvent_of_complete hp hd]
  refine ⟨fun hm => ?_, fun q res ok msg e hm hfails => ?_, fun q res sc fp bv hm hfails => ?_⟩
  · rw [judgeResponse_of_no_message hm]; rfl
  · obtain ⟨hid, rfl⟩ | ⟨hid, rfl, rfl⟩ | ⟨hid, rfl, rfl, rfl⟩ := hfails
    · rw [judgeResponse_of_wrong_id hm hid]; rfl
    · rw [judgeResponse_of_failing_body hm hid (by rw [judge_of_negative_ack]; nofun), judge_of_negative_ack]; rfl
    · rw [judgeResponse_of_failing_body hm hid nofun]; rfl
  · by_cases hid : q = p.seqId
    · have hbody := judge_of_handshakeResponse (hfails.resolve_left (not_not.2 hid)) bv sc fp
      rw [judgeResponse_of_failing_body hm hid (by rw [hbody]; nofun), hbody]; rfl
    · rw [judgeResponse_of_wrong_id hm hid]; rfl

/-! ## A good response -/

/-- Settles O49: the good response is recorded, and outside a session it is the command's last act to answer. -/
theorem responseCompletesThePhase : Obligations.ResponseCompletesThePhase := by
  refine fun s k res hd => ⟨fun sc fp bv hp hm => ?_,
    fun msg => ⟨fun hp hm => ?_, fun hp hm => ?_, fun hp hm => ?_⟩⟩
  · rw [afterEvent_of_complete hp hd, judgeResponse_of_good hm rfl rfl]; rfl
  · exact afterEvent_of_ack (p := .prepare) hp hd nofun hm
  · exact afterEvent_of_ack (p := .transfer) hp hd nofun hm
  · exact afterEvent_of_ack (p := .verify) hp hd nofun hm

/-- Inside a session a phase that can be sent starts with its request (R262, R267). -/
theorem requestSent_afterEvent {s u : State} {p : Phase} {r : Request} {n : Nat} (hstarts : SessionStarts s p r u)
    (hm : (msgEnc s.params r).length ≤ 1024) (hlink : nextWriteAnswer s.link = .accepted n)
    (hn : (frameBytes (msgEnc s.params r)).length ≤ n) : RequestSent p true (msgEnc s.params r) u (afterEvent s) := by
  obtain ⟨x, hnext, hmessage, hovf, hulink, -⟩ := sessionStarts_afterEvent hstarts
  rw [hnext, startPhase_of_fits hovf (hmessage ▸ hm), hmessage]
  exact requestSent_sendRequest (hulink ▸ hlink) hn

/-- Settles O50: the next phase starts with its request, and after the last one the session is answered. -/
theorem sessionGoesOn : Obligations.SessionGoesOn :=
  ⟨fun _ _ _ _ _ hstarts hm hlink hn => requestSent_afterEvent hstarts hm hlink hn,
    fun _ _ _ _ hp hd hm => afterEvent_of_ack (p := .verify) hp hd nofun hm⟩

end Sys2Proof.Machine
end

section
/-! SUPPORT. The transitions of `CL_STATE` (spec/44_protocol_client.md R251): what an exchange makes of it, then every
operation. -/

namespace Sys2Proof.Machine

/-! ## An exchange -/

/-- `CL_STATE` has stayed, or reset came during a write (R352). -/
def ClientKeptOrReset (s t : State) : Prop :=
  t.cl.state = s.cl.state ∨ (t.cl.state = .disconnected ∧ ∃ n, nextWriteAnswer s.link = .resetDuring n)

@[simp] theorem recordResponse_cl_state (r : Response) (s : State) : (recordResponse r s).cl.state = s.cl.state := by
  unfold recordResponse; split <;> rfl

section
variable {s : State}

theorem clientKeptOrReset_sendRequest (p : Phase) (b : Bool) (m : List Byte) :
    ClientKeptOrReset s (sendRequest p b m s) := by
  obtain ⟨n, -, -, heq⟩ | ⟨n, -, -, heq⟩ | ⟨-, heq⟩ | ⟨n, hreset, heq⟩ := sendRequest_cases p b m s
  · rw [heq]; exact .inl (by simp)
  · rw [heq]; exact .inl (by simp)
  · rw [heq]; exact .inl (by simp)
  · rw [heq]; exact .inr ⟨rfl, n, hreset⟩

theorem clientKeptOrReset_startPhase (p : Phase) (b : Bool) (n : Word) :
    ClientKeptOrReset s (startPhase p b n s) := by
  obtain ⟨-, heq⟩ | ⟨-, -, heq⟩ := startPhase_cases p b n s
  · rw [heq]; exact .inl rfl
  · rw [heq]; exact clientKeptOrReset_sendRequest (s := loadRequest p (phaseMessage p n s) s) p b _

theorem clientKeptOrReset_phaseCommand (p : Phase) (n : Word) : ClientKeptOrReset s (phaseCommand p n s) := by
  obtain ⟨-, heq⟩ | ⟨-, heq⟩ := phaseCommand_cases p n s
  · rw [heq]; exact clientKeptOrReset_startPhase p false n
  · rw [heq]; exact .inl rfl

theorem clientKeptOrReset_continueSession (p : Phase) (b : Bool) : ClientKeptOrReset s (continueSession p b s) := by
  obtain ⟨-, heq⟩ | ⟨-, -, heq⟩ | ⟨-, -, heq⟩ | ⟨-, -, heq⟩ | ⟨-, -, heq⟩ := continueSession_cases p b s
  · rw [heq]; exact .inl rfl
  · rw [heq]; exact clientKeptOrReset_startPhase _ _ _
  · rw [heq]; exact clientKeptOrReset_startPhase _ _ _
  · rw [heq]; exact clientKeptOrReset_startPhase _ _ _
  · rw [heq]; exact .inl rfl

/-- A complete frame either fails its phase, or the client moves to the state that the phase leaves (R251, R253). -/
theorem judgeResponse_cl_state (p : Phase) (b : Bool) :
    ClientKeptOrReset s (judgeResponse p b s) ∨ (judgeResponse p b s).cl.state = p.leaves := by
  obtain ⟨-, heq⟩ | ⟨r, -, -, heq⟩ | ⟨r, -, -, -, heq⟩ | ⟨r, -, -, -, heq⟩ := judgeResponse_cases p b s
  · rw [heq]; exact .inl (.inl rfl)
  · rw [heq]; exact .inl (.inl (by simp))
  · rw [heq]; exact .inl (.inl (by simp))
  · rw [heq]
    obtain hkept | ⟨hdisconnected, n, hreset⟩ := clientKeptOrReset_continueSession
      (s := recordSuccess p r.body (recordResponse r s)) p b
    · exact .inr (by rw [hkept, recordSuccess_cl_state])
    · exact .inl (.inr ⟨hdisconnected, n, by simpa using hreset⟩)

/-- Without a complete frame no phase ends well (R261, R262). -/
theorem finishExchange_cl_state_of_incomplete (hd : s.dec.state ≠ .complete) (p : Phase) (b : Bool) (k : Nat) :
    (finishExchange p b k s).cl.state = s.cl.state := by
  obtain ⟨hcomplete, -⟩ | ⟨-, -, heq⟩ | ⟨-, -, -, heq⟩ := finishExchange_cases p b k s
  · exact absurd hcomplete hd
  · rw [heq]; rfl
  · rw [heq]; rfl

theorem respondDecode_cl : (respondDecode s).cl = s.cl := by
  obtain ⟨-, heq⟩ | ⟨-, -, heq⟩ | ⟨-, -, heq⟩ := respondDecode_cases s <;> rw [heq] <;> rfl

/-- The end of an event leaves `CL_STATE` unless an exchange has its complete frame. -/
theorem afterEvent_cl_state :
    (afterEvent s).cl.state = s.cl.state ∨
      ∃ p b k, s.progress = .exchange p b k ∧ s.dec.state = .complete ∧ afterEvent s = judgeResponse p b s := by
  obtain ⟨-, heq⟩ | ⟨-, -, heq⟩ | ⟨-, -, heq⟩ | ⟨p, b, k, -, hp, heq⟩ := afterEvent_cases s
  · exact .inl (by rw [heq])
  · exact .inl (by rw [heq])
  · exact .inl (by rw [heq, respondDecode_cl])
  · by_cases hd : s.dec.state = .complete
    · exact .inr ⟨p, b, k, hp, hd, afterEvent_of_complete hp hd⟩
    · exact .inl (by rw [heq, finishExchange_cl_state_of_incomplete hd])

end

/-! ## Every operation -/

/-- What an operation has done to `CL_STATE` from `s` to `t`: nothing; or it is `CL.OPEN`; or it is `CL.CLOSE`, or reset came;
or it is the byte that completed a phase's good response (R251). -/
inductive ClientMove (i : Instr) (s t : State) : Prop where
  | kept (h : t.cl.state = s.cl.state)
  | opened (hi : i = .clOpen) (hs : s.cl.state = .disconnected) (ht : t.cl.state = .connected)
  | disconnected (hi : i = .clClose ∨ mayReset i s) (ht : t.cl.state = .disconnected)
  | phase (b : Byte) (p : Phase) (hi : i = .rxByte b) (hs : s.cl.state = p.needs) (ht : t.cl.state = p.leaves)

namespace ClientMove

variable {i : Instr} {s t : State}

theorem of_keptOrReset (h : ClientKeptOrReset s t) : ClientMove i s t := by
  obtain hkept | ⟨hdisconnected, n, hreset⟩ := h
  · exact .kept hkept
  · exact .disconnected (.inr (mayReset_of_write n hreset)) hdisconnected

/-- A command that is not accepted moves nothing (R24). -/
theorem accept {f : State → State} (h : ClientMove i s (f s)) : ClientMove i s (accept s f) := by
  obtain ⟨-, heq⟩ | ⟨-, heq⟩ := accept_cases s f <;> rw [heq]
  · exact .kept rfl
  · exact h

theorem execClOpen (h : execClOpen s = .next t) : ClientMove .clOpen s t := by
  cases h
  refine accept ?_
  split
  · exact .kept rfl
  · next hs =>
    split
    · exact .opened rfl (not_not.1 hs) rfl
    · exact .kept rfl
    · next hreset => exact .disconnected (.inr (mayReset_of_open hreset)) rfl

theorem execClClose (h : execClClose s = .next t) : ClientMove .clClose s t := by
  cases h
  refine accept ?_
  split
  · exact .kept rfl
  · split <;> exact .disconnected (.inl rfl) rfl

theorem execClRunSession (h : execClRunSession s = .next t) : ClientMove i s t := by
  cases h
  refine accept ?_
  split
  · exact .kept rfl
  · split
    · exact .kept rfl
    · exact of_keptOrReset (clientKeptOrReset_startPhase _ _ _)

theorem execEncFrame (h : execEncFrame s = .next t) : ClientMove i s t := by
  cases h
  refine accept ?_
  split
  · exact .kept rfl
  · obtain ⟨n, -, -, heq⟩ | ⟨n, -, -, heq⟩ | ⟨-, heq⟩ | ⟨n, hreset, heq⟩ := sendFrame_cases (frameBytes (txPayload s)) s
    · rw [heq]; exact .kept rfl
    · rw [heq]; exact .kept rfl
    · rw [heq]; exact .kept rfl
    · rw [heq]; exact .disconnected (.inr (mayReset_of_write n hreset)) rfl

theorem execDecStart (h : execDecStart s = .next t) : ClientMove i s t := by
  cases h
  refine accept ?_
  split <;> exact .kept rfl

/-- An event that fails the decoder completes no frame. -/
theorem onEvent_of_failed {f : State → State} (hf : DecoderOnly f) (hfailed : (f s).dec.state = .failed) :
    ClientMove i s (onEvent f s) := by
  obtain ⟨-, heq⟩ | ⟨-, heq⟩ := onEvent_cases f s <;> rw [heq]
  · obtain hkept | ⟨-, -, -, -, hcomplete, -⟩ := afterEvent_cl_state (s := f s)
    · obtain ⟨d, m, k, hfs⟩ := hf s
      exact .kept (by rw [hkept, hfs])
    · exact absurd (hfailed.symm.trans hcomplete) nofun
  · exact .kept rfl

/-- The byte that completes a frame may complete the phase, in the client state that it needs (R43, R252). -/
theorem rxByte (hinv : Inv s) (b : Byte) : ClientMove (.rxByte b) s (onEvent (receiveByte b) s) := by
  obtain ⟨-, heq⟩ | ⟨-, heq⟩ := onEvent_cases (receiveByte b) s <;> rw [heq]
  · obtain ⟨d, m, j, hfs⟩ := decoderOnly_receiveByte b s
    rw [hfs]
    obtain hkept | ⟨p, session, k, hp, -, heq⟩ :=
      afterEvent_cl_state (s := { s with dec := d, mem := m, epoch := j })
    · exact .kept hkept
    · rw [heq]
      obtain hkept | hleaves := judgeResponse_cl_state (s := { s with dec := d, mem := m, epoch := j }) p session
      · exact of_keptOrReset hkept
      · exact .phase b p rfl (hinv.exchange hp).needs hleaves
  · exact .kept rfl

end ClientMove

theorem answer_cl (v : Option Word) (s : State) : (answer v s).cl = s.cl := by
  cases v <;> rfl

theorem pushTxbuf_cl (b : Byte) (s : State) : (pushTxbuf b s).cl = s.cl := by
  unfold pushTxbuf; split <;> rfl

theorem pushDbuf_cl (b : Byte) (s : State) : (pushDbuf b s).cl = s.cl := by
  unfold pushDbuf; split <;> rfl

/-- Every operation moves `CL_STATE` in one of these ways or not at all. -/
theorem exec_clientMove {i : Instr} {s t : State} (hinv : Inv s) (h : exec i s = .next t) : ClientMove i s t := by
  cases i with
  | clOpen => exact .execClOpen h
  | clClose => exact .execClClose h
  | clRunSession => exact .execClRunSession h
  | encFrame => exact .execEncFrame h
  | decStart => exact .execDecStart h
  | clHandshake | clPrepare | clTransfer | clVerify =>
    cases h; exact .accept (.of_keptOrReset (clientKeptOrReset_phaseCommand _ _))
  | rd | bufRead | logRead => cases h; exact .accept (.kept (congrArg _ (answer_cl _ _)))
  | txbufPush b => cases h; exact .accept (.kept (congrArg Client.state (pushTxbuf_cl b s)))
  | dbufPush b => cases h; exact .accept (.kept (congrArg Client.state (pushDbuf_cl b s)))
  | nop | crc16Init | crc16Update | crc16Read | crc32Init | crc32Update | crc32Read | txbufClear | decReset
  | dbufClear =>
    cases h; exact .accept (.kept rfl)
  | rxByte b => cases h; exact .rxByte hinv b
  | rxTimeout => cases h; exact .onEvent_of_failed decoderOnly_receiveTimeout (receiveTimeout_dec_state s)
  | rxError | sigAbort => cases h; exact .onEvent_of_failed (decoderOnly_rxFail _) rfl
  | sigReset => cases h; exact .disconnected (.inr (.inl rfl)) rfl

/-! ## The statement -/

/-- The arrow of a phase is one of the four after that of `CL.OPEN` (R251, R252). -/
theorem clientMoves_needs_leaves (p : Phase) : clientMoves p.needs p.leaves = true := by
  cases p <;> rfl

theorem clientMoves_disconnected (a : ClState) : clientMoves a .disconnected = true := rfl

theorem leaves_ne_connected (p : Phase) : p.leaves ≠ .connected := by
  cases p <;> nofun

theorem leaves_ne_disconnected (p : Phase) : p.leaves ≠ .disconnected := by
  cases p <;> nofun

/-- Settles O51: each way in which `CL_STATE` moves is one of the table's, by the operation that makes it. -/
theorem clientTransitions : Obligations.ClientTransitions := by
  intro i s t hinv hexec hmoved
  obtain hkept | ⟨hi, hs, ht⟩ | ⟨hi, ht⟩ | ⟨b, p, hi, hs, ht⟩ := exec_clientMove hinv hexec
  · exact absurd hkept hmoved
  · rw [hs, ht]
    exact ⟨rfl, fun _ => hi, nofun, fun h => absurd rfl h⟩
  · rw [ht]
    exact ⟨clientMoves_disconnected _, nofun, fun _ => hi, fun _ h => absurd rfl h⟩
  · rw [hs, ht]
    exact ⟨clientMoves_needs_leaves p, fun h => absurd h (leaves_ne_connected p),
      fun h => absurd h (leaves_ne_disconnected p), fun _ _ => ⟨b, hi⟩⟩

end Sys2Proof.Machine
end

section
/-! SUPPORT. What a buffer begins with, through the writes of an exchange (spec/20_memory.md R60, R63). -/

namespace Sys2Proof.Machine

theorem Memory.addr_eq_addr_zero_add (sp : Space) (i : Nat) : Memory.addr sp i = Memory.addr sp 0 + i := by
  simp only [Memory.addr, Nat.add_zero]

/-- A buffer begins with a list of bytes, each of them written. -/
structure Holds (s : State) (sp : Space) (bs : List Byte) : Prop where
  fits : bs.length ≤ 2 ^ 32
  bytes : ∀ i (h : i < bs.length), s.mem.readAt (Memory.addr sp i) = some bs[i]

namespace Holds

variable {s t : State} {sp : Space} {bs : List Byte}

theorem nil : Holds s sp [] := ⟨Nat.zero_le _, nofun⟩

/-- Written bytes are what the buffer begins with (R44). -/
theorem of_written {n : Nat} (h : Written s sp n) (hn : n ≤ 2 ^ 32) : Holds s sp (bufferBytes s sp n) := by
  refine ⟨by rwa [bufferBytes_length], fun i hi => ?_⟩
  obtain ⟨b, hb⟩ := Option.isSome_iff_exists.1 (h i (by rwa [bufferBytes_length] at hi))
  simp [bufferBytes, bufferByte_of_readAt hb, hb]

theorem bufferBytes_eq (h : Holds s sp bs) : bufferBytes s sp bs.length = bs := bufferBytes_eq_of_readAt h.bytes

/-- The same, by the 11-bit register that keeps the length of a field (R37). -/
theorem bufferBytes_eq_of_field (h : Holds s sp bs) (hbs : bs.length ≤ 1024) :
    bufferBytes s sp (BitVec.ofNat 11 bs.length).toNat = bs := by
  rw [BitVec.toNat_ofNat, Nat.mod_eq_of_lt (by omega), h.bufferBytes_eq]

theorem of_kept (h : Holds s sp bs)
    (hkept : ∀ i, i < 2 ^ 32 → t.mem.readAt (Memory.addr sp i) = s.mem.readAt (Memory.addr sp i)) : Holds t sp bs :=
  ⟨h.fits, fun i hi => (hkept i (hi.trans_le h.fits)).trans (h.bytes i hi)⟩

/-- A field that has been written from the start of a buffer on. -/
theorem of_write (hbs : bs.length ≤ 1024) (hm : t.mem = s.mem.writeList (Memory.addr sp 0) bs) : Holds t sp bs :=
  ⟨by omega, fun i hi => by
    rw [hm, Memory.addr_eq_addr_zero_add sp i, Memory.readAt_writeList_inside _ _ _ _ hi]⟩

/-- A field written in another buffer. -/
theorem write_other {cs : List Byte} (h : Holds s sp bs) (sp' : Space) (hsp : sp ≠ sp') (hcs : cs.length ≤ 1024)
    (hm : t.mem = s.mem.writeList (Memory.addr sp' 0) cs) : Holds t sp bs :=
  h.of_kept fun i hi => by rw [hm, Memory.readAt_writeList_other s.mem _ i cs hsp (by omega) hi]

/-- A request is written in TXBUF and its response in RXBUF, so the other buffers keep their bytes (R73, R262). -/
theorem messageStored {m : List Byte} (h : Holds s sp bs) (hrx : sp ≠ .rxbuf) (htx : sp ≠ .txbuf) (hm : m.length ≤ 1024)
    (hstored : MessageStored m s t) : Holds t sp bs := by
  obtain ⟨-, -, hkept⟩ := hstored
  refine h.of_kept fun i hi => hkept _ ?_ (.inr ?_)
  all_goals
    cases sp with
    | rxbuf => exact absurd rfl hrx
    | txbuf => exact absurd rfl htx
    | dbuf | bootver | ackmsg => simp only [Memory.addr, Space.id]; omega

end Holds

end Sys2Proof.Machine
end

section
/-! SUPPORT. The whole session (spec/44_protocol_client.md R267, R269): what stays the same all through it, one lemma for the
run of each of its parts, and the statement put together from them. -/

namespace Sys2Proof.Machine

/-! ## What stays the same -/

/-- A state `t` in a session of `s`: the client's registers are `c` and BOOTVER begins with `bv`; the link has still to deliver
`rx` and to give the write answers `as`; the rest is as in `s`, with the staged data in DBUF. -/
structure InSession (s : State) (c : Client) (bv : List Byte) (rx : List RxSymbol) (as : List TxAnswer) (t : State) :
    Prop where
  client : t.cl = c
  engine : t.engine = s.engine
  dbufLen : t.dbufLen = s.dbufLen
  port : t.port = s.port
  params : t.params = s.params
  rx : t.link.rx = rx
  answers : t.link.writeAnswers = as
  data : Holds t .dbuf (stagedData s)
  version : Holds t .bootver bv

/-- The session waits for the response of a phase (R262). -/
structure Awaits (p : Phase) (s : State) (c : Client) (bv : List Byte) (rx : List RxSymbol) (as : List TxAnswer)
    (t : State) : Prop where
  dec : t.dec = { Decoder.reset with state := .syncing }
  progress : t.progress = .exchange p true 1
  session : InSession s c bv rx as t

/-- The response of a phase has come in a frame of the payload `m`. -/
structure HasResponse (p : Phase) (m : List Byte) (s : State) (c : Client) (bv : List Byte) (rx : List RxSymbol)
    (as : List TxAnswer) (t : State) : Prop where
  complete : t.dec.state = .complete
  payload : bufferBytes t .rxbuf t.dec.len.toNat = m
  progress : t.progress = .exchange p true 1
  session : InSession s c bv rx as t

/-- The record of a message's frame that the link took whole (R40). -/
def sentRecord (p : Phase) (m : List Byte) : LogRecord :=
  requestRecord p (frameBytes m).length m.length (frameBytes m).length

theorem sentRecord_frameType (p : Phase) (m : List Byte) : (sentRecord p m).frameType = BitVec.ofNat 3 p.number := rfl

theorem sentRecord_success (p : Phase) (m : List Byte) : (sentRecord p m).success = true := by
  rw [sentRecord, requestRecord_of_whole]

/-- The client's registers after a phase's request (R262). -/
def sentClient (p : Phase) (m : List Byte) (c : Client) : Client :=
  { c with seq := p.seqId, log := c.log ++ [sentRecord p m] }

/-- The client's registers after the handshake's response (R263). -/
def greetedClient (res sc fp : Word) (bv : List Byte) (c : Client) : Client :=
  { c with
    state := .handshakeDone, failedPhase := none, lastResult := res
    bootverLen := BitVec.ofNat 11 bv.length, supCaps := sc, flashPage := fp }

/-- The client's registers after an `Ack` with which the client moves on to the state `x` (R264 to R266). -/
def ackedClient (x : ClState) (res : Word) (msg : List Byte) (c : Client) : Client :=
  { c with
    state := x, failedPhase := none, lastResult := res, ackSuccess := true
    ackmsgLen := BitVec.ofNat 11 msg.length }

@[simp] theorem sentClient_log (p : Phase) (m : List Byte) (c : Client) :
    (sentClient p m c).log = c.log ++ [sentRecord p m] := rfl

@[simp] theorem greetedClient_log (res sc fp : Word) (bv : List Byte) (c : Client) :
    (greetedClient res sc fp bv c).log = c.log := rfl

@[simp] theorem ackedClient_log (x : ClState) (res : Word) (msg : List Byte) (c : Client) :
    (ackedClient x res msg c).log = c.log := rfl

section
variable {s t : State} {c : Client} {bv : List Byte} {rx : List RxSymbol} {as : List TxAnswer}

namespace InSession

theorem stagedData_eq (h : InSession s c bv rx as t) : stagedData t = stagedData s := by
  have hlen : t.dbufLen.toNat = (stagedData s).length := by rw [h.dbufLen, stagedData, bufferBytes_length]
  rw [stagedData, hlen, h.data.bufferBytes_eq]

theorem with_client (h : InSession s c bv rx as t) (c' : Client) : InSession s c' bv rx as { t with cl := c' } :=
  { h with client := rfl, data := ⟨h.data.fits, h.data.bytes⟩, version := ⟨h.version.fits, h.version.bytes⟩ }

/-- The version of the handshake's response goes to BOOTVER (R263). -/
theorem greeted {bv' : List Byte} (h : InSession s c bv rx as t) (hbv : bv'.length ≤ 1024) (res sc fp : Word) :
    InSession s (greetedClient res sc fp bv' c) bv' rx as
      { t with mem := t.mem.writeList (Memory.addr .bootver 0) bv', cl := greetedClient res sc fp bv' t.cl } :=
  { h with
    client := congrArg (greetedClient res sc fp bv') h.client
    data := h.data.write_other .bootver nofun hbv rfl
    version := .of_write hbv rfl }

/-- The text of an `Ack` goes to ACKMSG (R262). -/
theorem acknowledged {msg : List Byte} (h : InSession s c bv rx as t) (hmsg : msg.length ≤ 1024) (x : ClState)
    (res : Word) : InSession s (ackedClient x res msg c) bv rx as (acknowledged x res msg t) :=
  { h with
    client := congrArg (ackedClient x res msg) h.client
    data := h.data.write_other .ackmsg nofun hmsg rfl
    version := h.version.write_other .ackmsg nofun hmsg rfl }

/-- The request of a phase, the log having room (R262). -/
theorem awaits {p : Phase} {n : Nat} {m : List Byte} {u : State} (h : InSession s c bv rx (.accepted n :: as) u)
    (hm : m.length ≤ 1024) (hlog : c.log.length < s.params.logMax) (hsent : RequestSent p true m u t) :
    Awaits p s (sentClient p m c) bv rx as t := by
  obtain ⟨hengine, -, hdec, hdbufLen, hcl, -, hprogress, hstored, hlink, hport, hparams⟩ := hsent
  refine ⟨hdec, hprogress, ?_, hengine.trans h.engine, hdbufLen.trans h.dbufLen, hport.trans h.port,
    hparams.trans h.params, ?_, ?_, h.data.messageStored nofun nofun hm hstored,
    h.version.messageStored nofun nofun hm hstored⟩
  · rw [hcl, h.client, h.params, loggedClient, if_pos (by exact hlog), sentClient, sentRecord, requestRecord_of_whole]
    rfl
  · rw [hlink]; exact h.rx
  · rw [hlink]; exact congrArg List.tail h.answers

theorem nextWriteAnswer_eq {n : Nat} (h : InSession s c bv rx (.accepted n :: as) t) :
    nextWriteAnswer t.link = .accepted n := by
  simp only [nextWriteAnswer, h.answers]

end InSession

/-! ## The response of a phase -/

theorem eq_withRx (h : t.link.rx = rx) : t = withRx rx t := by
  subst h; rfl

/-- A whole frame after garbage completes the decode of an exchange (R193, R194, R262). -/
theorem Awaits.run {p : Phase} {g m f : List Byte} (h : Awaits p s c bv (byteSymbols (g ++ f) ++ rx) as t)
    (hw : s.port.wires = []) (hg : 0x7E ∉ g) (hf : frameEncode m = some f) :
    ∃ v, HasResponse p m s c bv rx as v ∧
      ∀ n, Host.Core.run Sys2Proof.core ((g ++ f).length + n) t = Host.Core.run Sys2Proof.core n (afterEvent v) := by
  obtain ⟨hdec, hprogress, hsession⟩ := h
  have hm := length_le_of_frameEncode hf
  have hwires : t.port.wires = [] := by rw [hsession.port, hw]
  let k : BitVec 32 := BitVec.ofNat 32 (min g.length 0xFFFFFFFF)
  let crc := crc16Ccitt (crcInput m)
  obtain rfl : frameHead m crc ++ [0x7F] = f := (frameHead_append_eof m).trans (frameBytes_of_frameEncode hf)
  refine ⟨withRx rx (received .complete m crc k t), ⟨rfl, rxPayload_received .complete hm, hprogress, ?_⟩, fun n => ?_⟩
  · exact { hsession with
      rx := rfl
      data := hsession.data.write_other .rxbuf nofun hm rfl
      version := hsession.version.write_other .rxbuf nofun hm rfl }
  · have hstream : t.link.rx = byteSymbols (g ++ frameHead m crc) ++ ((0x7F : Byte).setWidth 9 :: rx) := by
      rw [hsession.rx, ← List.append_assoc, byteSymbols_append, List.append_assoc]
      rfl
    have hlength : (g ++ (frameHead m crc ++ [0x7F])).length + n = (g ++ frameHead m crc).length + (n + 1) := by
      simp only [List.length_append, List.length_singleton]; omega
    have hend := step_of_byte (s := received .readingEnd m crc k t) (b := 0x7F) rfl hwires rx
    rw [receiveByte_of_readingEnd rfl, rxEnd_received_of_match hm rfl] at hend
    rw [hlength, eq_withRx hstream, (reads_frameHead hdec hg hm crc).run hwires]
    exact run_succ_of_step hend n

end

/-! ## From phase to phase -/

theorem length_frameBytes_le {m : List Byte} (hm : m.length ≤ 1024) : (frameBytes m).length ≤ 2054 := by
  have hescaped : m.countP needsEscape ≤ m.length := List.countP_le_length
  rw [length_frameBytes m hm]
  omega

theorem ack_length_le {q : Params} {a msg : List Byte} {i res : Word} {ok : Bool}
    (h : msgDec q a = some { sequenceId := i, result := res, body := .ack ok msg }) : msg.length ≤ 1024 := by
  simpa [responseFits] using responseFits_of_msgDec h

theorem version_length_le {q : Params} {a bv : List Byte} {i res sc fp : Word}
    (h : msgDec q a = some { sequenceId := i, result := res, body := .handshakeResponse bv sc fp }) :
    bv.length ≤ 1024 := by
  simpa [responseFits] using responseFits_of_msgDec h

section
variable {s t : State} {c : Client} {bv g m f msg : List Byte} {res : Word} {rx : List RxSymbol} {as : List TxAnswer}
  {n : Nat}

/-- The session is in `u` when it has recorded a good response in `v`; the next phase sends its request (R267). -/
theorem InSession.next_phase {c' : Client} {bv' : List Byte} {u v : State} {p : Phase} {r : Request}
    (hu : InSession s c bv rx (.accepted n :: as) u) (hv : InSession s c' bv' rx (.accepted n :: as) v)
    (hstarts : SessionStarts v p r u) (hm : (msgEnc s.params r).length ≤ 1024) (hn : 2054 ≤ n)
    (hlog : c.log.length < s.params.logMax) : Awaits p s (sentClient p (msgEnc s.params r) c) bv rx as (afterEvent v) := by
  rw [← hv.params] at hm ⊢
  exact hu.awaits hm hlog
    (requestSent_afterEvent hstarts hm hv.nextWriteAnswer_eq ((length_frameBytes_le hm).trans hn))

/-- The handshake's good response starts the prepare phase. -/
theorem Awaits.prepare_follows {sc fp : Word} {bv' : List Byte}
    (h : Awaits .handshake s c bv (byteSymbols (g ++ f) ++ rx) (.accepted n :: as) t) (hw : s.port.wires = [])
    (hg : 0x7E ∉ g) (hf : frameEncode m = some f)
    (hresponse : msgDec s.params m = some { sequenceId := 1, result := res, body := .handshakeResponse bv' sc fp })
    (hm : (msgEnc s.params { sequenceId := 2, body := .prepare s.dbufLen false }).length ≤ 1024) (hn : 2054 ≤ n)
    (hlog : c.log.length < s.params.logMax) :
    ∃ t', Awaits .prepare s
        (sentClient .prepare (msgEnc s.params { sequenceId := 2, body := .prepare s.dbufLen false })
          (greetedClient res sc fp bv' c)) bv' rx as t' ∧
      ∀ k, Host.Core.run Sys2Proof.core ((g ++ f).length + k) t = Host.Core.run Sys2Proof.core k t' := by
  obtain ⟨v, ⟨hcomplete, hpayload, hprogress, hv⟩, hrun⟩ := h.run hw hg hf
  have hu := hv.greeted (version_length_le hresponse) res sc fp
  have hstarts := SessionStarts.prepare 1 res sc fp bv' hprogress hcomplete (by rw [hpayload, hv.params, hresponse])
  rw [← hv.dbufLen] at hm ⊢
  exact ⟨afterEvent v, hu.next_phase hv hstarts hm hn hlog, hrun⟩

/-- The prepare's good response starts the transfer phase. -/
theorem Awaits.transfer_follows (h : Awaits .prepare s c bv (byteSymbols (g ++ f) ++ rx) (.accepted n :: as) t)
    (hw : s.port.wires = []) (hg : 0x7E ∉ g) (hf : frameEncode m = some f)
    (hresponse : msgDec s.params m = some { sequenceId := 2, result := res, body := .ack true msg })
    (hdata : s.dbufLen.toNat ≤ s.params.dataMax)
    (hm : (msgEnc s.params
      { sequenceId := 3, body := .dataPacket 0 (stagedData s) (crc32Bootloader (stagedData s)) }).length ≤ 1024)
    (hn : 2054 ≤ n) (hlog : c.log.length < s.params.logMax) :
    ∃ t', Awaits .transfer s
        (sentClient .transfer (msgEnc s.params
            { sequenceId := 3, body := .dataPacket 0 (stagedData s) (crc32Bootloader (stagedData s)) })
          (ackedClient .prepared res msg c)) bv rx as t' ∧
      ∀ k, Host.Core.run Sys2Proof.core ((g ++ f).length + k) t = Host.Core.run Sys2Proof.core k t' := by
  obtain ⟨v, ⟨hcomplete, hpayload, hprogress, hv⟩, hrun⟩ := h.run hw hg hf
  have hu := hv.acknowledged (ack_length_le hresponse) .prepared res
  have hstarts := SessionStarts.transfer 1 res msg hprogress hcomplete (by rw [hpayload, hv.params, hresponse])
    (by rw [hv.dbufLen, hv.params]; exact hdata)
  rw [hu.stagedData_eq] at hstarts
  exact ⟨afterEvent v, hu.next_phase hv hstarts hm hn hlog, hrun⟩

/-- The transfer's good response starts the verify phase, the length of the data being recorded. -/
theorem Awaits.verify_follows (h : Awaits .transfer s c bv (byteSymbols (g ++ f) ++ rx) (.accepted n :: as) t)
    (hw : s.port.wires = []) (hg : 0x7E ∉ g) (hf : frameEncode m = some f)
    (hresponse : msgDec s.params m = some { sequenceId := 3, result := res, body := .ack true msg })
    (hm : (msgEnc s.params { sequenceId := 4, body := .prepare s.dbufLen true }).length ≤ 1024) (hn : 2054 ≤ n)
    (hlog : c.log.length < s.params.logMax) :
    ∃ t', Awaits .verify s
        (sentClient .verify (msgEnc s.params { sequenceId := 4, body := .prepare s.dbufLen true })
          { ackedClient .dataSent res msg c with stagedLen := s.dbufLen }) bv rx as t' ∧
      ∀ k, Host.Core.run Sys2Proof.core ((g ++ f).length + k) t = Host.Core.run Sys2Proof.core k t' := by
  obtain ⟨v, ⟨hcomplete, hpayload, hprogress, hv⟩, hrun⟩ := h.run hw hg hf
  have hacked := hv.acknowledged (ack_length_le hresponse) .dataSent res
  have hu := hacked.with_client { ackedClient .dataSent res msg c with stagedLen := s.dbufLen }
  have hstarts := SessionStarts.verify 1 res msg hprogress hcomplete (by rw [hpayload, hv.params, hresponse])
  rw [hv.dbufLen, hacked.client] at hstarts
  exact ⟨afterEvent v, hu.next_phase hv hstarts hm hn hlog, hrun⟩

/-- The verify's good response ends the session with the length of the data (R267). -/
theorem Awaits.session_ends (h : Awaits .verify s c bv (byteSymbols (g ++ f) ++ rx) as t)
    (hw : s.port.wires = []) (hg : 0x7E ∉ g) (hf : frameEncode m = some f)
    (hresponse : msgDec s.params m = some { sequenceId := 4, result := res, body := .ack true msg }) :
    ∃ u, InSession s { ackedClient .verified res msg c with bytesXfer := s.dbufLen } bv rx as u ∧ Holds u .ackmsg msg ∧
      ∀ k, Host.Core.run Sys2Proof.core ((g ++ f).length + k) t =
        Host.Core.run Sys2Proof.core k (respond .none s.dbufLen u) := by
  obtain ⟨v, ⟨hcomplete, hpayload, hprogress, hv⟩, hrun⟩ := h.run hw hg hf
  have hmsg := ack_length_le hresponse
  have hacked := hv.acknowledged hmsg .verified res
  obtain ⟨-, hends⟩ := sessionGoesOn
  have hanswer := hends v 1 res msg hprogress hcomplete (by rw [hpayload, hv.params, hresponse])
  dsimp only at hanswer
  rw [hv.dbufLen, hacked.client] at hanswer
  exact ⟨_, hacked.with_client _, .of_write (s := v) hmsg rfl, fun k => by rw [hrun, hanswer]⟩

/-- The state with the words `cmds` at the command port. -/
def withCmd (cmds : List CmdWord) (s : State) : State := { s with port := { s.port with cmd := cmds } }

/-- `CL.RUN_SESSION` in a connected client with its data staged sends the handshake's request (R267). -/
theorem step_clRunSession {w : CmdWord} {cmds : List CmdWord} (hinv : Inv s) (hidle : s.progress = .idle)
    (hs : s.cl.state = .connected) (hdata : s.dbufLen.toNat ≤ s.params.dataMax) (hlog : s.cl.log.length < s.params.logMax)
    (hw : s.port.wires = []) (hcmd : s.port.cmd = w :: cmds) (hdecode : decodeCmd w = .ok .clRunSession)
    (hanswers : s.link.writeAnswers = .accepted n :: as) (hn : 2054 ≤ n)
    (hm : (msgEnc s.params
      { sequenceId := 1, body := .handshake s.params.capabilities s.params.maxPacketSize }).length ≤ 1024) :
    ∃ t, step s = .next t ∧
      Awaits .handshake (withCmd cmds s)
        (sentClient .handshake (msgEnc s.params
          { sequenceId := 1, body := .handshake s.params.capabilities s.params.maxPacketSize }) s.cl)
        [] s.link.rx as t := by
  have hreading : s.dec.state.reading = false := by simpa [hidle] using hinv.reading_iff
  have hwires : s.port.wires.tail = s.port.wires := by rw [hw]; rfl
  have hwritten : Written s .dbuf s.dbufLen.toNat := hinv.1.dbuf.mono (by omega)
  have hstart : InSession (withCmd cmds s) s.cl [] s.link.rx (.accepted n :: as) (withCmd cmds s) :=
    { client := rfl, engine := rfl, dbufLen := rfl, port := rfl, params := rfl, rx := rfl, answers := hanswers
      data := .of_written hwritten (by omega), version := .nil }
  rw [step_runs_command hidle hreading (by rw [hw]; rfl) hcmd hdecode, hwires]
  obtain ⟨t, hexec, hsent⟩ := exec_sends_request (s := withCmd cmds s) (i := .clRunSession) (p := .handshake)
    (b := true) hidle hstart.nextWriteAnswer_eq (if_pos ⟨hs, hdata⟩) hm ((length_frameBytes_le hm).trans hn)
  exact ⟨t, hexec, hstart.awaits hm hlog hsent⟩

end

/-! ## The statement -/

/-- Settles O52: the command, then phase by phase. -/
theorem fullSession : Obligations.FullSession := by
  intro s w cmds g₁ g₂ g₃ g₄ p₁ p₂ p₃ p₄ f₁ f₂ f₃ f₄ bv m₂ m₃ m₄ r₁ r₂ r₃ r₄ sc fp rest answers n₁ n₂ n₃ n₄ hinv hidle
    hs hdata hlog hmax hw hcmd hdecode hanswers hn₁ hn₂ hn₃ hn₄ hm₁ hm₂ hm₃ hm₄ hg₁ hg₂ hg₃ hg₄ hf₁ hf₂ hf₃ hf₄
    hd₁ hd₂ hd₃ hd₄ hrx
  have room {c : Client} (hc : c.log.length ≤ 3) : c.log.length < s.params.logMax := Nat.lt_of_le_of_lt hc hmax
  obtain ⟨t₁, hstep, h₁⟩ := step_clRunSession hinv hidle hs hdata (room (by simp [hlog])) hw hcmd
    hdecode hanswers hn₁ hm₁
  have hstream : s.link.rx = byteSymbols (g₁ ++ f₁) ++ (byteSymbols (g₂ ++ f₂) ++ (byteSymbols (g₃ ++ f₃) ++
      (byteSymbols (g₄ ++ f₄) ++ rest))) := by
    rw [hrx]; simp only [byteSymbols_append, List.append_assoc]
  have hsteps : 1 + ((g₁ ++ f₁) ++ (g₂ ++ f₂) ++ (g₃ ++ f₃) ++ (g₄ ++ f₄)).length =
      (g₁ ++ f₁).length + ((g₂ ++ f₂).length + ((g₃ ++ f₃).length + ((g₄ ++ f₄).length + 0))) + 1 := by
    simp only [List.length_append]; omega
  rw [hstream] at h₁
  obtain ⟨t₂, h₂, hrun₁⟩ := h₁.prepare_follows hw hg₁ hf₁ hd₁ hm₂ hn₂ (room (by simp [hlog]))
  obtain ⟨t₃, h₃, hrun₂⟩ := h₂.transfer_follows hw hg₂ hf₂ hd₂ hdata hm₃ hn₃ (room (by simp [hlog]))
  obtain ⟨t₄, h₄, hrun₃⟩ := h₃.verify_follows hw hg₃ hf₃ hd₃ hm₄ hn₄ (room (by simp [hlog]))
  obtain ⟨u, hu, hackmsg, hrun₄⟩ := h₄.session_ends hw hg₄ hf₄ hd₄
  refine ⟨respond .none s.dbufLen u, ?_, ?_⟩
  · rw [hsteps, run_succ_of_step hstep, hrun₁, hrun₂, hrun₃, hrun₄]
    rfl
  · obtain ⟨hclient, hengine, hdbufLen, hport, -, hurx, huanswers, -, hversion⟩ := hu
    have hresp : (respond .none s.dbufLen u).port =
        { s.port with cmd := cmds, resp := s.port.resp ++ [responseWord .none s.dbufLen] } := by
      rw [respond_port, hport]; rfl
    rw [respond_cl, hclient]
    refine ⟨hresp, rfl, rfl, rfl, rfl, rfl, rfl, ?_, ?_, rfl, rfl, rfl,
      hversion.bufferBytes_eq_of_field (version_length_le hd₁), hackmsg.bufferBytes_eq_of_field (ack_length_le hd₄),
      hurx, huanswers, hengine, hdbufLen⟩
    · simp [hlog, sentRecord_frameType, Phase.number]
    · simp [hlog, sentRecord_success]

end Sys2Proof.Machine
end

section
/-! SUPPORT. Host access (spec/45_host_access.md R300 to R303): the two fields of a response word, and for each reading
command when it has a value to answer and when it is refused. -/

namespace Sys2Proof.Machine

/-! ## Responses -/

/-- A response word is its status above its value (R102). -/
theorem responseWord_fields (e : ErrKind) (v : Word) :
    (responseWord e v).extractLsb' 32 8 = e.code ∧ (responseWord e v).extractLsb' 0 32 = v :=
  ⟨BitVec.extractLsb'_append_eq_left, BitVec.extractLsb'_append_eq_right⟩

/-- Settles O9: `respond` by its definition, the two fields of the word, and `NOP` on a free block. -/
theorem responseOfACommand : Obligations.ResponseOfACommand :=
  ⟨fun e v _ => ⟨rfl, responseWord_fields e v⟩, rfl, fun _ hidle => next_accept_of_idle hidle _⟩

theorem answer_of_some {o : Option Word} {v : Word} (h : o = some v) (s : State) : answer o s = respond .none v s := by
  rw [h, answer]

theorem answer_of_none {o : Option Word} (h : o = none) (s : State) : answer o s = respond .cmdRefused 0 s := by
  rw [h, answer, refuse]

/-- A flag as a word (R302). -/
theorem setWidth_flagBit (b : Bool) : (flagBit b).setWidth 32 = if b then 1 else 0 := by
  cases b <;> rfl

/-! ## `RD` -/

/-- The registers in the order of their numbers (R42). -/
def registersByNumber (s : State) : List Word :=
  [statusWord s, s.engine.crc16.setWidth 32, s.engine.crc32, s.txLen.setWidth 32, s.dec.len.setWidth 32,
    s.dec.cnt.setWidth 32, s.dec.crc.setWidth 32, s.dec.discard, s.dec.err.code.setWidth 32, s.cl.seq, s.cl.flashPage,
    s.cl.supCaps, s.cl.bootverLen.setWidth 32, s.cl.lastResult, (flagBit s.cl.ackSuccess).setWidth 32,
    s.cl.ackmsgLen.setWidth 32, s.dbufLen, s.cl.stagedLen, s.cl.bytesXfer, logCount s, s.lastErr.code.setWidth 32,
    (failedPhaseCode s.cl.failedPhase).setWidth 32, s.dec.state.code.setWidth 32, s.cl.state.code.setWidth 32]

theorem readRegister_of_reserved {r : Nat} (h : 24 ≤ r) (s : State) : readRegister s r = none := by
  unfold readRegister
  split
  case h_25 => rfl
  all_goals omega

/-- Reading a register is looking its number up: the numbers above 0x17 are reserved (R42). -/
theorem readRegister_eq_getElem? (s : State) (r : Nat) : readRegister s r = (registersByNumber s)[r]? := by
  obtain hr | hr := Nat.lt_or_ge r 24
  · interval_cases r <;> rfl
  · have hnone : (registersByNumber s)[r]? = none := List.getElem?_eq_none hr
    rw [readRegister_of_reserved hr, hnone]

/-- `FAILED_PHASE` as a word (R41). -/
theorem setWidth_failedPhaseCode (o : Option Phase) :
    (failedPhaseCode o).setWidth 32 = match o with | none => 0 | some p => BitVec.ofNat 32 p.number := by
  obtain _ | p := o
  · rfl
  · cases p <;> rfl

theorem exec_rd_of_idle {s : State} (h : s.progress = .idle) (r : BitVec 8) :
    exec (.rd r) s = .next (answer (registersByNumber s)[r.toNat]? s) := by
  rw [← readRegister_eq_getElem?]
  exact next_accept_of_idle h _

/-- Settles O13: the statement's list is `registersByNumber`, with the flag and the phase spelled out. -/
theorem registerRead : Obligations.RegisterRead := by
  refine ⟨fun _ => decodeCmd_cmdWord _ _, fun s r hidle => ?_⟩
  rw [exec_rd_of_idle hidle, registersByNumber, setWidth_flagBit, setWidth_failedPhaseCode]
  rfl

/-! ## `BUF.READ` -/

theorem Space.ofId_id (b : Space) : Space.ofId b.id = some b := by
  cases b <;> rfl

theorem Space.ofId_of_reserved {n : Nat} (h : 5 ≤ n) : Space.ofId n = none := by
  unfold Space.ofId
  split
  case h_6 => rfl
  all_goals omega

theorem Space.toNat_ofNat_id (b : Space) : (BitVec.ofNat 8 b.id).toNat = b.id := by
  cases b <;> rfl

/-- A space id is reserved or a buffer's (R60, R71). -/
theorem Space.id_cases (sp : BitVec 8) : 5 ≤ sp.toNat ∨ ∃ b : Space, sp = BitVec.ofNat 8 b.id := by
  obtain h | h := Nat.lt_or_ge sp.toNat 5
  · have hid : ∃ b : Space, sp.toNat = b.id := by
      interval_cases sp.toNat
      exacts [⟨.rxbuf, rfl⟩, ⟨.txbuf, rfl⟩, ⟨.dbuf, rfl⟩, ⟨.bootver, rfl⟩, ⟨.ackmsg, rfl⟩]
    exact .inr (hid.imp fun b hb => BitVec.eq_of_toNat_eq (hb.trans (toNat_ofNat_id b).symm))
  · exact .inl h

/-- `BUF.READ` of a buffer is refused from its valid length on (R301). -/
theorem refusedIn_bufRead_iff (s : State) (b : Space) (i : BitVec 24) :
    refusedIn s (.bufRead (BitVec.ofNat 8 b.id) i) ↔ validLength s b ≤ i.toNat := by
  cases b with
  | rxbuf =>
    by_cases hs : s.dec.state = .complete <;> simp [refusedIn, Space.id, validLength, hs]
  | txbuf | dbuf | bootver | ackmsg => simp [refusedIn, Space.id, validLength]

theorem readBuffer_id (s : State) (b : Space) (i : Nat) :
    readBuffer s b.id i = if i < validLength s b then some ((bufferByte s b i).setWidth 32) else none := by
  rw [readBuffer, Space.ofId_id]

/-- A refused `BUF.READ` names no buffer, or an index at or above the valid length (R301). -/
theorem readBuffer_of_refused {s : State} {sp : BitVec 8} {i : BitVec 24} (h : refusedIn s (.bufRead sp i)) :
    readBuffer s sp.toNat i.toNat = none := by
  obtain hsp | ⟨b, rfl⟩ := Space.id_cases sp
  · rw [readBuffer, Space.ofId_of_reserved hsp]
  · rw [Space.toNat_ofNat_id, readBuffer_id, if_neg (Nat.not_lt.2 ((refusedIn_bufRead_iff s b i).1 h))]

theorem readBuffer_of_not_refused {s : State} {b : Space} {i : BitVec 24}
    (h : ¬ refusedIn s (.bufRead (BitVec.ofNat 8 b.id) i)) :
    readBuffer s (BitVec.ofNat 8 b.id).toNat i.toNat = some ((bufferByte s b i.toNat).setWidth 32) := by
  rw [Space.toNat_ofNat_id, readBuffer_id, if_pos (Nat.lt_of_not_le ((refusedIn_bufRead_iff s b i).not.1 h))]

theorem exec_bufRead_of_idle {s : State} (h : s.progress = .idle) (sp : BitVec 8) (i : BitVec 24) :
    exec (.bufRead sp i) s = .next (answer (readBuffer s sp.toNat i.toNat) s) :=
  next_accept_of_idle h _

/-- Settles O14: a refused read has no value, any other has the buffer's byte, and a written byte reads as written. -/
theorem bufferRead : Obligations.BufferRead := by
  refine ⟨fun _ => decodeCmd_cmdWord _ _, fun s sp i hidle href => ?_, fun s b i hidle hval => ?_,
    fun _ _ _ _ hbyte => bufferByte_of_readAt hbyte⟩
  · rw [exec_bufRead_of_idle hidle, answer_of_none (readBuffer_of_refused href)]
  · rw [exec_bufRead_of_idle hidle, answer_of_some (readBuffer_of_not_refused hval)]

/-! ## `LOG.READ` -/

theorem recordField_of_reserved {f : Nat} (h : 4 < f) (r : LogRecord) : recordField r f = none := by
  unfold recordField
  split
  case h_6 => rfl
  all_goals omega

/-- `LOG.READ` has no value where there is no such record or no such field (R302). -/
theorem readLog_eq_none {s : State} {i f : Nat} (h : s.cl.log.length ≤ i ∨ 4 < f) : readLog s i f = none := by
  unfold readLog
  split
  next r hr =>
    obtain hi | hf := h
    · rw [List.getElem?_eq_none hi] at hr
      cases hr
    · exact recordField_of_reserved hf r
  next => rfl

theorem readLog_of_record {s : State} {i : Nat} {r : LogRecord} (h : s.cl.log[i]? = some r) (f : Nat) :
    readLog s i f = recordField r f := by
  rw [readLog, h]

theorem exec_logRead_of_idle {s : State} (h : s.progress = .idle) (i f : BitVec 8) :
    exec (.logRead i f) s = .next (answer (readLog s i.toNat f.toNat) s) :=
  next_accept_of_idle h _

/-- A field that the record has is what `LOG.READ` answers. -/
theorem exec_logRead_of_field {s : State} {i f : BitVec 8} {r : LogRecord} {v : Word} (hidle : s.progress = .idle)
    (hr : s.cl.log[i.toNat]? = some r) (hv : recordField r f.toNat = some v) :
    exec (.logRead i f) s = .next (respond .none v s) := by
  rw [exec_logRead_of_idle hidle, answer_of_some ((readLog_of_record hr _).trans hv)]

/-- Settles O15: without record or field there is no value, and each of the five fields is the record's. -/
theorem logRead : Obligations.LogRead := by
  refine ⟨fun _ => decodeCmd_cmdWord _ _, fun s i f hidle h => ?_, fun s i r hidle hr => ?_⟩
  · rw [exec_logRead_of_idle hidle, answer_of_none (readLog_eq_none h)]
  · exact ⟨exec_logRead_of_field hidle hr rfl, exec_logRead_of_field hidle hr rfl, exec_logRead_of_field hidle hr rfl,
      exec_logRead_of_field hidle hr rfl,
      exec_logRead_of_field hidle hr (congrArg some (setWidth_flagBit r.success))⟩

end Sys2Proof.Machine
end

section
/-! SUPPORT. Errors and refusals (spec/60_exceptions.md R310, R318, R371): no operation stops and a step has one way to; which
commands are refused, and that a command which is not refused ends without `CmdRefused`. -/

namespace Sys2Proof.Machine

/-! ## Going on -/

theorem step_of_badSymbol {s : State} (h : nextInput s = .badSymbol) : step s = .fault .reservedReceiveSymbol := by
  simp only [step, h]

/-- Every arm of `exec` answers a next state: an error is a status value (R310). -/
theorem exec_goes_on (i : Instr) (s : State) : ∃ t, exec i s = .next t := by
  cases i <;> exact ⟨_, rfl⟩

/-- Whatever the ports deliver, the step goes on, but for a symbol that no link produces. -/
theorem step_goes_on_of_ne_badSymbol {s : State} (h : nextInput s ≠ .badSymbol) : ∃ t, step s = .next t := by
  cases hin : nextInput s with
  | run i t => exact (exec_goes_on i t).imp fun _ ht => (step_of_run hin).trans ht
  | reserved t => exact ⟨_, step_of_reserved hin⟩
  | wait t => exact ⟨_, step_of_wait hin⟩
  | badSymbol => exact absurd hin h

theorem reserved_of_decodeRx_error {e : RxSymbol} {x : DecodeError} (h : decodeRx e = .error x) : 0x102 ≤ e.toNat := by
  unfold decodeRx at h
  split_ifs at h
  omega

/-- The link has handed over a symbol that R104 reserves. -/
theorem nextEvent_eq_badSymbol {s : State} (h : nextEvent s = .badSymbol) :
    ∃ (e : RxSymbol) (rest : List RxSymbol), s.link.rx = e :: rest ∧ 0x102 ≤ e.toNat := by
  unfold nextEvent at h
  split at h
  · cases h
  · next e rest hrx =>
    split at h
    · cases h
    · next x herr => exact ⟨e, rest, hrx, reserved_of_decodeRx_error herr⟩

/-- Only the read of the link can deliver it, and only a reading decoder reads the link (R65). -/
theorem nextInput_eq_badSymbol {s : State} (h : nextInput s = .badSymbol) :
    s.dec.state.reading = true ∧ nextEvent (takeWires s) = .badSymbol := by
  obtain ⟨-, hin⟩ | ⟨-, -, hin⟩ | ⟨-, hr, hin⟩ | ⟨-, -, -, hin⟩ | ⟨-, -, -, hin⟩ := nextInput_cases s <;> rw [hin] at h
  · cases h
  · cases h
  · exact ⟨hr, h⟩
  · cases h
  · obtain ⟨-, hcmd⟩ | ⟨i, rest, hcmd⟩ | ⟨rest, hcmd⟩ := nextCommand_cases (takeWires s) <;> rw [hcmd] at h <;> cases h

/-- Settles O8: the operations by `exec_goes_on`, a step by whether its input is a symbol that no link produces. -/
theorem operationsNeverStop : Obligations.OperationsNeverStop := by
  refine ⟨exec_goes_on, fun s => ?_⟩
  by_cases hin : nextInput s = .badSymbol
  · obtain ⟨hr, hev⟩ := nextInput_eq_badSymbol hin
    exact .inr ⟨step_of_badSymbol hin, hr, nextEvent_eq_badSymbol (s := takeWires s) hev⟩
  · exact .inl (step_goes_on_of_ne_badSymbol hin)

/-! ## The values that a reading command may not have -/

/-- `RD` has no value exactly for the reserved numbers (R300). -/
theorem readRegister_eq_none_iff (s : State) (r : BitVec 8) :
    readRegister s r.toNat = none ↔ refusedIn s (.rd r) := by
  rw [readRegister_eq_getElem?]
  exact List.getElem?_eq_none_iff

/-- `BUF.READ` has no value exactly where R301 refuses it. -/
theorem readBuffer_eq_none_iff (s : State) (sp : BitVec 8) (i : BitVec 24) :
    readBuffer s sp.toNat i.toNat = none ↔ refusedIn s (.bufRead sp i) := by
  refine ⟨fun hnone => by_contra fun hval => ?_, readBuffer_of_refused⟩
  obtain hsp | ⟨b, rfl⟩ := Space.id_cases sp
  · exact hval (.inl hsp)
  · rw [readBuffer_of_not_refused hval] at hnone
    cases hnone

theorem recordField_eq_none_iff (r : LogRecord) (f : Nat) : recordField r f = none ↔ 4 < f := by
  refine ⟨fun hnone => ?_, fun hf => recordField_of_reserved hf r⟩
  by_contra hf
  interval_cases f <;> cases hnone

/-- `LOG.READ` has no value exactly without such a record or such a field (R302). -/
theorem readLog_eq_none_iff (s : State) (i f : BitVec 8) :
    readLog s i.toNat f.toNat = none ↔ refusedIn s (.logRead i f) := by
  refine ⟨fun hnone => ?_, readLog_eq_none⟩
  obtain hi | hi := Nat.lt_or_ge i.toNat s.cl.log.length
  · rw [readLog_of_record (List.getElem?_eq_getElem hi)] at hnone
    exact .inr ((recordField_eq_none_iff _ _).1 hnone)
  · exact .inl hi

/-! ## The refused commands -/

theorem phaseCommand_of_not_needed {p : Phase} {s : State} (h : s.cl.state ≠ p.needs) (n : Word) :
    phaseCommand p n s = refuse s := if_neg h

theorem exec_clRunSession_refused {s : State} (hidle : s.progress = .idle) (hs : s.cl.state ≠ .connected) :
    exec .clRunSession s = .next (refuse s) :=
  (next_accept_of_idle hidle _).trans (congrArg _ (if_pos hs))

/-- By clauses (b) to (f) of R318: a value that does not exist, or a state that is not the one needed. -/
theorem exec_of_refused {i : Instr} {s : State} (hidle : s.progress = .idle) (href : refusedIn s i) :
    exec i s = .next (refuse s) := by
  have refuses {p : Phase} (hs : s.cl.state ≠ p.needs) (n : Word) :
      Host.Outcome.next (accept s (phaseCommand p n)) = (.next (refuse s) : Host.Outcome State Fault Refusal) :=
    (next_accept_of_idle hidle _).trans (congrArg _ (phaseCommand_of_not_needed hs n))
  have no_value {o : Option Word} (ho : o = none) :
      Host.Outcome.next (accept s (answer o)) = (.next (refuse s) : Host.Outcome State Fault Refusal) :=
    (next_accept_of_idle hidle _).trans (congrArg _ (answer_of_none ho s))
  cases i with
  | rd r => exact no_value ((readRegister_eq_none_iff s r).2 href)
  | bufRead sp k => exact no_value ((readBuffer_eq_none_iff s sp k).2 href)
  | logRead k f => exact no_value ((readLog_eq_none_iff s k f).2 href)
  | decStart => exact exec_decStart_refused hidle href
  | clOpen => exact exec_clOpen_refused hidle href
  | clRunSession => exact exec_clRunSession_refused hidle href
  | clHandshake => exact refuses (p := .handshake) href 0
  | clPrepare n => exact refuses (p := .prepare) href n
  | clTransfer => exact refuses (p := .transfer) href 0
  | clVerify => exact refuses (p := .verify) href 0
  | _ => cases href

/-! ## The other commands -/

/-- No other error kind has the code of a refusal (R312). -/
theorem ErrKind.eq_cmdRefused_of_code {e : ErrKind} (h : e.code = ErrKind.cmdRefused.code) : e = .cmdRefused := by
  cases e with
  | cmdRefused => rfl
  | _ => exact absurd h (by decide)

/-- From `s` to `t` the block has not refused: it has emitted nothing, or its last response has another status (R41). -/
def NotRefused (s t : State) : Prop := t.port.resp = s.port.resp ∨ t.lastErr ≠ .cmdRefused

namespace NotRefused

variable {s t : State}

theorem respond {e : ErrKind} (v : Word) (u : State) (he : e ≠ .cmdRefused := by decide) :
    NotRefused s (respond e v u) := .inr he

theorem phaseFailed {e : ErrKind} (p : Phase) (b : Bool) (u : State) (he : e ≠ .cmdRefused := by decide) :
    NotRefused s (phaseFailed p b e u) := .inr he

theorem accept {f : State → State} (h : NotRefused s (f s)) : NotRefused s (accept s f) := by
  obtain ⟨-, heq⟩ | ⟨-, heq⟩ := accept_cases s f <;> rw [heq]
  · exact .inl rfl
  · exact h

theorem answer {o : Option Word} (ho : o ≠ none) : NotRefused s (answer o s) := by
  obtain ⟨v, hv⟩ := Option.ne_none_iff_exists'.1 ho
  rw [answer_of_some hv]
  exact respond v s

theorem sendFrame (f : List Byte) : NotRefused s (sendFrame f s) := by
  obtain ⟨n, -, -, heq⟩ | ⟨n, -, -, heq⟩ | ⟨-, heq⟩ | ⟨n, -, heq⟩ := sendFrame_cases f s <;> rw [heq]
  · exact respond _ _
  · exact respond _ _
  · exact respond _ _
  · exact .inl rfl

theorem sendRequest {u : State} (hresp : u.port.resp = s.port.resp) (p : Phase) (b : Bool) (m : List Byte) :
    NotRefused s (sendRequest p b m u) := by
  obtain ⟨n, -, -, heq⟩ | ⟨n, -, -, heq⟩ | ⟨-, heq⟩ | ⟨n, -, heq⟩ := sendRequest_cases p b m u <;> rw [heq]
  · exact .inl (by simpa using hresp)
  · exact phaseFailed _ _ _
  · exact phaseFailed _ _ _
  · exact .inl hresp

theorem startPhase (p : Phase) (b : Bool) (n : Word) : NotRefused s (startPhase p b n s) := by
  obtain ⟨-, heq⟩ | ⟨-, -, heq⟩ := startPhase_cases p b n s <;> rw [heq]
  · exact phaseFailed _ _ _
  · exact sendRequest rfl p b _

theorem phaseCommand {p : Phase} (hs : ¬ s.cl.state ≠ p.needs) (n : Word) : NotRefused s (phaseCommand p n s) := by
  rw [phaseCommand_of_needed (not_not.1 hs)]
  exact startPhase p false n

theorem execEncFrame (h : execEncFrame s = .next t) : NotRefused s t := by
  cases h
  refine accept ?_
  split
  · exact respond _ _
  · exact sendFrame _

theorem execDecStart (hs : ¬ s.dec.state ≠ .idle) (h : execDecStart s = .next t) : NotRefused s t := by
  cases h
  refine accept ?_
  rw [if_neg hs]
  exact .inl rfl

theorem execClOpen (hs : ¬ s.cl.state ≠ .disconnected) (h : execClOpen s = .next t) : NotRefused s t := by
  cases h
  refine accept ?_
  rw [if_neg hs]
  split
  · exact respond _ _
  · exact respond _ _
  · exact .inl rfl

theorem execClClose (h : execClClose s = .next t) : NotRefused s t := by
  cases h
  refine accept ?_
  split
  · exact respond _ _
  · split
    · exact respond _ _
    · exact .inl rfl

theorem execClRunSession (hs : ¬ s.cl.state ≠ .connected) (h : execClRunSession s = .next t) : NotRefused s t := by
  cases h
  refine accept ?_
  rw [if_neg hs]
  split
  · exact phaseFailed _ _ _
  · exact startPhase _ _ _

/-- A response to `s` is then not one of refusal, whatever its value. -/
theorem resp_ne (h : NotRefused s t) (hports : PortEffects s t) (v : Word) :
    t.port.resp ≠ s.port.resp ++ [responseWord .cmdRefused v] := by
  intro href
  have hchanged : t.port.resp ≠ s.port.resp := by simp [href]
  obtain hsilent | ⟨e, w, hword, rfl, -⟩ := hports.resp
  · exact hchanged hsilent
  · have hcode : t.lastErr.code = ErrKind.cmdRefused.code := by
      have hsame : responseWord t.lastErr w = responseWord .cmdRefused v := by simpa [hword] using href
      rw [← (responseWord_fields t.lastErr w).1, hsame, (responseWord_fields .cmdRefused v).1]
    exact h.elim hchanged fun hne => hne (ErrKind.eq_cmdRefused_of_code hcode)

end NotRefused

/-- Outside the cases of R318 a command ends with another status, or is still in progress, or is cut by a reset. -/
theorem exec_not_refused {i : Instr} {s t : State} (hi : isCommand i = true) (hno : ¬ refusedIn s i)
    (h : exec i s = .next t) : NotRefused s t := by
  cases i with
  | rd r => cases h; exact .accept (.answer fun hnone => hno ((readRegister_eq_none_iff s r).1 hnone))
  | bufRead sp k => cases h; exact .accept (.answer fun hnone => hno ((readBuffer_eq_none_iff s sp k).1 hnone))
  | logRead k f => cases h; exact .accept (.answer fun hnone => hno ((readLog_eq_none_iff s k f).1 hnone))
  | encFrame => exact .execEncFrame h
  | decStart => exact .execDecStart hno h
  | clOpen => exact .execClOpen hno h
  | clClose => exact .execClClose h
  | clRunSession => exact .execClRunSession hno h
  | clHandshake => cases h; exact .accept (.phaseCommand (p := .handshake) hno 0)
  | clPrepare n => cases h; exact .accept (.phaseCommand (p := .prepare) hno n)
  | clTransfer => cases h; exact .accept (.phaseCommand (p := .transfer) hno 0)
  | clVerify => cases h; exact .accept (.phaseCommand (p := .verify) hno 0)
  | nop | crc16Init | crc16Update | crc16Read | crc32Init | crc32Update | crc32Read | txbufClear | txbufPush | decReset
  | dbufClear | dbufPush =>
    cases h; exact .accept (.respond _ _)
  | rxByte | rxTimeout | rxError | sigReset | sigAbort => cases hi

/-- Settles O11: a refused command has only its response, and any other ends without one of refusal. -/
theorem refusedCommandsChangeNothing : Obligations.RefusedCommandsChangeNothing := by
  refine fun i s hi hidle => ⟨fun href => exec_of_refused hidle href, fun hno => ?_⟩
  obtain ⟨t, ht⟩ := exec_goes_on i s
  exact ⟨t, ht, (exec_not_refused hi hno ht).resp_ne (exec_portEffects ht)⟩

end Sys2Proof.Machine
end

section
/-! SUPPORT. Reset (spec/70_reset_and_hazards.md R350 to R352): the signal itself, and a reset in the middle of a call to the
link, by what each of the model's writes makes of that answer. -/

namespace Sys2Proof.Machine

/-- Settles O54: the reset block is the machine after reset but for what is not the block's, and its memory lists no
byte. -/
theorem sigResetResets : Obligations.SigResetResets :=
  fun _ => ⟨rfl, rfl, Memory.readAt_nil⟩

/-! ## A reset during a write -/

section
variable {s : State} {f : List Byte} {n : Nat}

/-- A write that reset cuts short leaves its prefix on the wire, and no register has a part in it (R352). -/
theorem resetBlock_txWrite (h : nextWriteAnswer s.link = .resetDuring n) :
    resetBlock (txWrite f s) = resetInWrite f n s := by
  simp only [resetBlock, resetInWrite, txWrite, h, acceptedCount, ← List.take_eq_take_min]
  rfl

/-- What the block is after such a reset depends on the link, the ports, the parameters and the epoch alone (R351). -/
theorem resetInWrite_congr {u : State} (hlink : u.link = s.link) (hport : u.port = s.port) (hparams : u.params = s.params)
    (hepoch : u.epoch = s.epoch) : resetInWrite f n u = resetInWrite f n s := by
  simp only [resetInWrite, hlink, hport, hparams, hepoch]

theorem sendFrame_of_reset (h : nextWriteAnswer s.link = .resetDuring n) : sendFrame f s = resetInWrite f n s := by
  rw [← resetBlock_txWrite h]
  simp only [sendFrame, h]

theorem sendRequest_of_reset {p : Phase} {b : Bool} {m : List Byte} (h : nextWriteAnswer s.link = .resetDuring n) :
    sendRequest p b m s = resetInWrite (frameBytes m) n s := by
  rw [← resetBlock_txWrite h]
  simp only [sendRequest, h]

/-- A phase that can be sent is reset in its one write; that TXBUF and `SEQ` held the request by then is lost. -/
theorem startPhase_of_reset {p : Phase} {b : Bool} {x : Word} {m : List Byte} (hovf : p = .transfer → dbufOvf s = false)
    (hmessage : phaseMessage p x s = m) (hf : frameEncode m = some f) (h : nextWriteAnswer s.link = .resetDuring n) :
    startPhase p b x s = resetInWrite f n s := by
  subst hmessage
  obtain rfl := frameBytes_of_frameEncode hf
  calc startPhase p b x s
      = sendRequest p b (phaseMessage p x s) (loadRequest p (phaseMessage p x s) s) :=
        startPhase_of_fits hovf (length_le_of_frameEncode hf)
    _ = resetInWrite (frameBytes (phaseMessage p x s)) n (loadRequest p (phaseMessage p x s) s) :=
        sendRequest_of_reset (s := loadRequest p (phaseMessage p x s) s) h
    _ = resetInWrite (frameBytes (phaseMessage p x s)) n s := resetInWrite_congr rfl rfl rfl rfl

/-! ## A reset while the link opens or closes -/

theorem exec_clOpen_of_reset (hidle : s.progress = .idle) (hs : s.cl.state = .disconnected)
    (hlink : nextOpenAnswer s.link = .resetDuring) : exec .clOpen s = .next (resetBlock (linkOpen s)) :=
  (next_accept_of_idle hidle _).trans (by simp only [if_neg (not_not.2 hs), hlink])

theorem exec_clClose_of_reset (hidle : s.progress = .idle) (hs : s.cl.state ≠ .disconnected)
    (hlink : nextCloseAnswer s.link = .resetDuring) : exec .clClose s = .next (resetBlock (linkClose s)) :=
  (next_accept_of_idle hidle _).trans (by simp only [if_neg hs, hlink])

end

/-- Settles O55: `ENC.FRAME` and every phase end in one write, and the client's open and close in one call. -/
theorem resetDuringACall : Obligations.ResetDuringACall := by
  refine ⟨fun s f n hidle hlen hf hlink => ?_, fun i s p b r f n hidle hrequest hf hlink => ?_,
    fun s u p r f n hstarts hf hlink => ?_, fun _ hidle hs hlink => exec_clOpen_of_reset hidle hs hlink,
    fun _ hidle hs hlink => exec_clClose_of_reset hidle hs hlink⟩
  · rw [exec_encFrame_of_le hidle hlen hf, sendFrame_of_reset hlink]
  · obtain ⟨x, hexec, hmessage, hovf⟩ := exec_of_phaseRequest hidle hrequest
    rw [hexec, startPhase_of_reset hovf hmessage hf hlink]
  · obtain ⟨x, hnext, hmessage, hovf, hulink, huport, huparams, huepoch, -⟩ := sessionStarts_afterEvent hstarts
    rw [hnext, startPhase_of_reset hovf hmessage hf (hulink ▸ hlink)]
    exact resetInWrite_congr hulink huport huparams huepoch

end Sys2Proof.Machine
end
